-- ==== Sys2Proof/Word.lean ====
section
/-! DEFINITION. The plain data types of the gomeboy PPU core: bytes, addresses, pixels, stores.
Widths are those of spec/10_state.md (rules R30, R40, R63) and spec/30_encoding.md (rule R140). -/

namespace Sys2Proof

/-- Every register, store cell and access of the block is one byte (rules R19, R103). -/
abbrev Byte := BitVec 8

/-- A 16-bit CPU or Bus address (rules R16, R101). -/
abbrev Addr := BitVec 16

/-- An offset into one VRAM bank, 0x0000 to 0x1FFF (rule R59). -/
abbrev VOff := BitVec 13

/-- A 15-bit colour-RAM colour (rule R61). -/
abbrev Rgb15 := BitVec 15

/-- A frame-buffer pixel, three 8-bit channels (rule R40). -/
structure Rgb where
  r : Byte
  g : Byte
  b : Byte
  deriving DecidableEq, Repr, Inhabited

/-- A map from the four shades 0 to 3 to pixels (rules R13, R56, R600). -/
structure ShadeTable where
  s0 : Rgb
  s1 : Rgb
  s2 : Rgb
  s3 : Rgb
  deriving DecidableEq, Repr, Inhabited

/-- One colour RAM, 64 bytes (rule R61). -/
abbrev Cram := Vector Byte 64

/-- One row of 160 pixels (rule R18). -/
abbrev Row := Vector Rgb 160

/-- The frame buffer: 144 rows of 160 pixels, `fb[y][x]` (rule R63). -/
abbrev FrameBuffer := Vector Row 144

end Sys2Proof
end

