-- ==== Sys2Proof/Config.lean ====
section
/-! DEFINITION. What the configuration, the hardware revision or silence leaves open
(spec/00_scope.md rules R8 to R17): the constants of a run, held as data in the state so that every
statement about all states is a statement about every configuration, and the free values, which are
constants without a body. -/

namespace Sys2Proof

/-- FREE VALUE. `RGB5TO8` of rule R13 where it is not the spec's default expansion: conversion number
`k` may be any function. DESIGN CHOICE (assumption 5), safe: nothing can be proved of its values. -/
opaque Config.rgb5to8 : Nat → Rgb15 → Rgb

/-- FREE VALUE. The byte the Bus answers to the `n`-th oracle read, at the address given (rule R16:
"a free input under no law" outside VRAM). DESIGN CHOICE (assumption 4), safe: nothing can be proved
of its values. -/
opaque Config.busByte : Nat → Addr → Byte

/-- Which colour conversion the display has (rules R13, R632): the spec's default, or any other. -/
inductive RgbConv where
  /-- each 5-bit channel c becomes `(c << 3) | (c >> 2)` -/
  | expand
  /-- an unknown conversion, `Config.rgb5to8 k` -/
  | other (k : Nat)
  deriving DecidableEq, Repr, Inhabited

/-- The constants of a run. -/
structure Config where
  /-- `COLOR_HW` (rule R8) -/
  colorHw : Bool
  /-- `COLOR_CART` (rule R9) -/
  colorCart : Bool
  /-- `VBLANK_IRQ_LATE` (rule R10) -/
  vblankIrqLate : Bool
  /-- `LINE_EXTRA = 4`; false is `LINE_EXTRA = 0` (rule R11) -/
  lineExtra4 : Bool
  /-- `LINE0_OAM_SRC` (rule R12) -/
  line0OamSrc : Bool
  /-- `GRAY` (rules R13, R602) -/
  gray : ShadeTable
  /-- `RGB5TO8` (rules R13, R632) -/
  rgb : RgbConv
  /-- `BLANK` (rule R13) -/
  blank : Rgb
  /-- `CRAM_INIT` of background colour RAM (rule R17) -/
  bgCramInit : Cram
  /-- `CRAM_INIT` of object colour RAM (rule R17) -/
  objCramInit : Cram
  deriving DecidableEq, Repr

/-- A grey pixel. -/
def Rgb.gray (v : Byte) : Rgb := ⟨v, v, v⟩

/-- The spec's default parameters (rules R12, R13, R17, R602, R632 and the conventions of
spec/95_test_vectors.md) for one choice of hardware and cartridge. -/
def Config.default (colorHw colorCart : Bool) : Config where
  colorHw := colorHw
  colorCart := colorCart
  vblankIrqLate := false
  lineExtra4 := false
  line0OamSrc := false
  gray := ⟨.gray 255, .gray 170, .gray 85, .gray 0⟩
  rgb := .expand
  blank := .gray 255
  bgCramInit := Vector.replicate 64 0
  objCramInit := Vector.replicate 64 0

/-- The configuration of `State.reset`: colour hardware with a colour cartridge, every other parameter
at the spec's default. DESIGN CHOICE (assumption 2), unsafe for a statement about `State.reset` alone:
the spec gives no default for `COLOR_HW` and `COLOR_CART`. -/
def Config.atReset : Config := Config.default true true

end Sys2Proof
end

