-- ==== Sys2Proof/Syntax.lean ====
section
/-! DEFINITION. The operations of the block as syntax: one constructor of `Instr` per row of
spec/opcode_table.json (62 rows), the scheduled events, and the raw operation word with its operand
list (spec/30_encoding.md). -/

namespace Sys2Proof

/-- The scheduled PPU events (rule R143). -/
inductive Event where
  | glitchXfer
  | glitchHblank
  | line0Start
  | oamCont
  | xferStart
  | hblankPre
  | hblankStart
  | hblankEnd
  | vblankCont
  | vblankLine
  | l153Cont
  | l153End
  | l153FrameEnd
  deriving DecidableEq, Repr

/-- One entry of an OAM batch: `(off, v)` (rule R146). -/
structure OamWrite where
  off : Nat
  val : Byte
  deriving DecidableEq, Repr

/-- One entry of a VRAM batch: `(off, bank, v)` (rule R146). -/
structure VramWrite where
  off : Nat
  bank : Nat
  val : Byte
  deriving DecidableEq, Repr

/-- The operations. `rd…` and `wr…` are the CPU's accesses (rules R141, R142), `ev…` the scheduled
events (rule R143), the last four the control operations (rule R144). -/
inductive Instr where
  | rdVram (off : VOff)
  | wrVram (off : VOff) (data : Byte)
  | rdOam (off : Fin 160)
  | wrOam (off : Fin 160) (data : Byte)
  | rdLcdc
  | wrLcdc (data : Byte)
  | rdStat
  /-- WR.STAT on colour hardware (rule R215) -/
  | wrStat (data : Byte)
  /-- WR.STAT on non-colour hardware, with the write bug (rule R216) -/
  | wrStatDmg (data : Byte)
  | rdScy
  | wrScy (data : Byte)
  | rdScx
  | wrScx (data : Byte)
  | rdLy
  | wrLy (data : Byte)
  | rdLyc
  | wrLyc (data : Byte)
  | rdBgp
  | wrBgp (data : Byte)
  | rdObp0
  | wrObp0 (data : Byte)
  | rdObp1
  | wrObp1 (data : Byte)
  | rdWy
  | wrWy (data : Byte)
  | rdWx
  | wrWx (data : Byte)
  | rdHdma1
  | wrHdma1 (data : Byte)
  | rdHdma2
  | wrHdma2 (data : Byte)
  | rdHdma3
  | wrHdma3 (data : Byte)
  | rdHdma4
  | wrHdma4 (data : Byte)
  | rdHdma5
  | wrHdma5 (data : Byte)
  | rdBcps
  | wrBcps (data : Byte)
  | rdBcpd
  | wrBcpd (data : Byte)
  | rdOcps
  | wrOcps (data : Byte)
  | rdOcpd
  | wrOcpd (data : Byte)
  | evGlitchXfer
  | evGlitchHblank
  | evLine0Start
  | evOamCont
  | evXferStart
  | evHblankPre
  | evHblankStart
  | evHblankEnd
  | evVblankCont
  | evVblankLine
  | evL153Cont
  | evL153End
  | evL153FrameEnd
  | reset
  | oamBatch (ws : List OamWrite)
  | vramBatch (ws : List VramWrite)
  | advance (n : Nat)
  deriving DecidableEq, Repr

/-- The operand that follows an operation word (rule R146): nothing, or what one of the three
operations with an operand carries. -/
inductive Operand where
  | none
  | oam (ws : List OamWrite)
  | vram (ws : List VramWrite)
  | time (n : Nat)
  deriving DecidableEq, Repr

/-- A raw operation: the 28-bit operation word and its operand (rule R140). -/
structure OpWord where
  word : BitVec 28
  operand : Operand
  deriving DecidableEq, Repr

end Sys2Proof
end

