-- ==== Sys2Proof/WellFormed.lean ====
section
/-! DEFINITION. Which terms of `Instr` spell an operation of the block: the range checks of a batch's
entries (rules R146, R150) and the hardware variant of WR.STAT (rules R147, R215, R216). Every other
operand is in range by its type. -/

namespace Sys2Proof

/-- An OAM batch entry addresses one of the 160 bytes (rule R146). -/
def OamWrite.ok (w : OamWrite) : Bool := decide (w.off < 160)

/-- A VRAM batch entry addresses a byte of one of the two banks (rule R146). -/
def VramWrite.ok (w : VramWrite) : Bool := decide (w.off < 0x2000) && decide (w.bank < 2)

/-- The operation is one that hardware of this variant has. -/
def Instr.wellFormed (colorHw : Bool) (i : Instr) : Bool :=
  match i with
  | .oamBatch ws => ws.all OamWrite.ok
  | .vramBatch ws => ws.all VramWrite.ok
  | .wrStat _ => colorHw
  | .wrStatDmg _ => !colorHw
  | .rdVram _ | .wrVram _ _ | .rdOam _ | .wrOam _ _ => true
  | .rdLcdc | .wrLcdc _ | .rdStat | .rdScy | .wrScy _ | .rdScx | .wrScx _ => true
  | .rdLy | .wrLy _ | .rdLyc | .wrLyc _ | .rdBgp | .wrBgp _ | .rdObp0 | .wrObp0 _ => true
  | .rdObp1 | .wrObp1 _ | .rdWy | .wrWy _ | .rdWx | .wrWx _ => true
  | .rdHdma1 | .wrHdma1 _ | .rdHdma2 | .wrHdma2 _ | .rdHdma3 | .wrHdma3 _ => true
  | .rdHdma4 | .wrHdma4 _ | .rdHdma5 | .wrHdma5 _ => true
  | .rdBcps | .wrBcps _ | .rdBcpd | .wrBcpd _ | .rdOcps | .wrOcps _ | .rdOcpd | .wrOcpd _ => true
  | .evGlitchXfer | .evGlitchHblank | .evLine0Start | .evOamCont | .evXferStart | .evHblankPre => true
  | .evHblankStart | .evHblankEnd | .evVblankCont | .evVblankLine => true
  | .evL153Cont | .evL153End | .evL153FrameEnd | .reset | .advance _ => true

end Sys2Proof
end

