-- ==== Sys2Proof/Decode.lean ====
section
/-! DEFINITION. The decoder of the 28-bit operation word with its operand list, total and refusing by
name, and after it the encoder (spec/30_encoding.md rules R140 to R150, spec/opcode_table.json). -/

namespace Sys2Proof

/-- Why a word spells no operation of the block (rule R149: "such a word is refused by the decoder
rather than executed"). Safe: the spec refuses these words too. -/
inductive DecodeError where
  /-- class 0x4 to 0xF -/
  | reservedClass
  /-- an RD or WR address outside the map of rule R147 -/
  | reservedAddress
  /-- an EV number other than 0x01 to 0x0D, or a nonzero bit in 15–8 -/
  | reservedEvent
  /-- a CTL code above 0x0003 -/
  | reservedControl
  /-- the operand list does not have the form of rule R146 for this operation
  (DESIGN CHOICE, assumption 12) -/
  | operandShape
  /-- a batch entry is out of range; the whole batch is refused (rules R146, R150) -/
  | batchEntryOutOfRange
  deriving DecidableEq, Repr

/-! The fields of the word (rule R140). -/

/-- Bits 27–20. -/
def OpWord.data (w : OpWord) : Byte := w.word.extractLsb' 20 8

/-- Bits 19–16. -/
def OpWord.cls (w : OpWord) : BitVec 4 := w.word.extractLsb' 16 4

/-- Bits 15–0. -/
def OpWord.arg (w : OpWord) : Addr := w.word.extractLsb' 0 16

/-- A word from its fields. -/
def mkWord (data : Byte) (cls : BitVec 4) (arg : Addr) : BitVec 28 := data ++ cls ++ arg

/-! The opcode map. -/

/-- The register reads (rule R147). -/
def rdTable : List (Addr × Instr) :=
  [(0xFF40#16, .rdLcdc), (0xFF41#16, .rdStat), (0xFF42#16, .rdScy), (0xFF43#16, .rdScx),
   (0xFF44#16, .rdLy), (0xFF45#16, .rdLyc), (0xFF47#16, .rdBgp), (0xFF48#16, .rdObp0),
   (0xFF49#16, .rdObp1), (0xFF4A#16, .rdWy), (0xFF4B#16, .rdWx)] ++
  [(0xFF51#16, .rdHdma1), (0xFF52#16, .rdHdma2), (0xFF53#16, .rdHdma3), (0xFF54#16, .rdHdma4),
   (0xFF55#16, .rdHdma5), (0xFF68#16, .rdBcps), (0xFF69#16, .rdBcpd), (0xFF6A#16, .rdOcps),
   (0xFF6B#16, .rdOcpd)]

/-- The register writes (rule R147); WR.STAT is one of two operations by `COLOR_HW`. -/
def wrTable (colorHw : Bool) (v : Byte) : List (Addr × Instr) :=
  [(0xFF40#16, .wrLcdc v), (0xFF41#16, if colorHw then .wrStat v else .wrStatDmg v),
   (0xFF42#16, .wrScy v), (0xFF43#16, .wrScx v), (0xFF44#16, .wrLy v), (0xFF45#16, .wrLyc v),
   (0xFF47#16, .wrBgp v), (0xFF48#16, .wrObp0 v), (0xFF49#16, .wrObp1 v), (0xFF4A#16, .wrWy v),
   (0xFF4B#16, .wrWx v)] ++
  [(0xFF51#16, .wrHdma1 v), (0xFF52#16, .wrHdma2 v), (0xFF53#16, .wrHdma3 v),
   (0xFF54#16, .wrHdma4 v), (0xFF55#16, .wrHdma5 v), (0xFF68#16, .wrBcps v),
   (0xFF69#16, .wrBcpd v), (0xFF6A#16, .wrOcps v), (0xFF6B#16, .wrOcpd v)]

/-- The event numbers (rule R143). -/
def Event.number (e : Event) : Byte :=
  match e with
  | .glitchXfer => 0x01
  | .glitchHblank => 0x02
  | .line0Start => 0x03
  | .oamCont => 0x04
  | .xferStart => 0x05
  | .hblankPre => 0x06
  | .hblankStart => 0x07
  | .hblankEnd => 0x08
  | .vblankCont => 0x09
  | .vblankLine => 0x0A
  | .l153Cont => 0x0B
  | .l153End => 0x0C
  | .l153FrameEnd => 0x0D

/-- The EV operation that fires an event. -/
def Event.instr (e : Event) : Instr :=
  match e with
  | .glitchXfer => .evGlitchXfer
  | .glitchHblank => .evGlitchHblank
  | .line0Start => .evLine0Start
  | .oamCont => .evOamCont
  | .xferStart => .evXferStart
  | .hblankPre => .evHblankPre
  | .hblankStart => .evHblankStart
  | .hblankEnd => .evHblankEnd
  | .vblankCont => .evVblankCont
  | .vblankLine => .evVblankLine
  | .l153Cont => .evL153Cont
  | .l153End => .evL153End
  | .l153FrameEnd => .evL153FrameEnd

/-- Every event, in the order of its number. -/
def Event.all : List Event :=
  [.glitchXfer, .glitchHblank, .line0Start, .oamCont, .xferStart, .hblankPre, .hblankStart,
   .hblankEnd, .vblankCont, .vblankLine, .l153Cont, .l153End, .l153FrameEnd]

/-- The event whose number is `arg[7:0]`, with `arg[15:8] = 0` (rules R143, R149). -/
def eventOfArg (arg : Addr) : Option Event :=
  Event.all.find? fun e => e.number.setWidth 16 == arg

/-- `arg` is in 0x8000–0x9FFF: the mask 0xFE000 of the VRAM rows (rule R148). -/
def isVramArg (arg : Addr) : Bool := arg.extractLsb' 13 3 == 0b100#3

/-- The OAM offset `arg − 0xFE00`, where it is below 160 (rules R148, R400). -/
def oamOffset (arg : Addr) : Option (Fin 160) :=
  if arg.extractLsb' 8 8 = 0xFE#8 then
    if h : (arg.extractLsb' 0 8).toNat < 160 then some ⟨(arg.extractLsb' 0 8).toNat, h⟩ else none
  else none

/-- Class RD (rule R141); the `data` field is ignored (rule R150). -/
def decodeRd (arg : Addr) : Except DecodeError Instr :=
  if isVramArg arg then .ok (.rdVram (arg.extractLsb' 0 13))
  else match oamOffset arg with
    | some off => .ok (.rdOam off)
    | none =>
      match rdTable.lookup arg with
      | some i => .ok i
      | none => .error .reservedAddress

/-- Class WR (rule R142). -/
def decodeWr (colorHw : Bool) (data : Byte) (arg : Addr) : Except DecodeError Instr :=
  if isVramArg arg then .ok (.wrVram (arg.extractLsb' 0 13) data)
  else match oamOffset arg with
    | some off => .ok (.wrOam off data)
    | none =>
      match (wrTable colorHw data).lookup arg with
      | some i => .ok i
      | none => .error .reservedAddress

/-- Class EV (rule R143). -/
def decodeEv (arg : Addr) : Except DecodeError Instr :=
  match eventOfArg arg with
  | some e => .ok e.instr
  | none => .error .reservedEvent

/-- The operand of OAM_BATCH (rule R146). -/
def decodeOamBatch (op : Operand) : Except DecodeError Instr :=
  match op with
  | .oam ws => if ws.all OamWrite.ok then .ok (.oamBatch ws) else .error .batchEntryOutOfRange
  | .none => .error .operandShape
  | .vram _ => .error .operandShape
  | .time _ => .error .operandShape

/-- The operand of VRAM_BATCH (rule R146). -/
def decodeVramBatch (op : Operand) : Except DecodeError Instr :=
  match op with
  | .vram ws => if ws.all VramWrite.ok then .ok (.vramBatch ws) else .error .batchEntryOutOfRange
  | .none => .error .operandShape
  | .oam _ => .error .operandShape
  | .time _ => .error .operandShape

/-- The operand of ADVANCE (rule R146). -/
def decodeAdvance (op : Operand) : Except DecodeError Instr :=
  match op with
  | .time n => .ok (.advance n)
  | .none => .error .operandShape
  | .oam _ => .error .operandShape
  | .vram _ => .error .operandShape

/-- An operation that carries no operand list (rule R146). -/
def withoutOperand (op : Operand) (r : Except DecodeError Instr) : Except DecodeError Instr :=
  if op = .none then r else .error .operandShape

/-- Class CTL (rule R144). -/
def decodeCtl (arg : Addr) (op : Operand) : Except DecodeError Instr :=
  if arg = 0x0000#16 then withoutOperand op (.ok .reset)
  else if arg = 0x0001#16 then decodeOamBatch op
  else if arg = 0x0002#16 then decodeVramBatch op
  else if arg = 0x0003#16 then decodeAdvance op
  else .error .reservedControl

/-- The decoder: "A decoder reads `class` first, then `arg`" (rule R140). `colorHw` is `COLOR_HW`,
which selects between the two WR.STAT rows (rule R147). -/
def decode (colorHw : Bool) (w : OpWord) : Except DecodeError Instr :=
  if w.cls = 0x0#4 then withoutOperand w.operand (decodeRd w.arg)
  else if w.cls = 0x1#4 then withoutOperand w.operand (decodeWr colorHw w.data w.arg)
  else if w.cls = 0x2#4 then withoutOperand w.operand (decodeEv w.arg)
  else if w.cls = 0x3#4 then decodeCtl w.arg w.operand
  else .error .reservedClass

/-! The host's probe of the decoder. -/

/-- The operand "of zeros" for a word of the table: an empty list for the batches, 0 for ADVANCE. -/
def zeroOperand (word : BitVec 28) : Operand :=
  if word.extractLsb' 0 20 = 0x30001#20 then .oam []
  else if word.extractLsb' 0 20 = 0x30002#20 then .vram []
  else if word.extractLsb' 0 20 = 0x30003#20 then .time 0
  else .none

/-- The raw operation of a table word of `nbits` bits: bits above `nbits` are 0 (assumption 1). -/
def OpWord.ofTable (nbits w : Nat) : OpWord :=
  ⟨BitVec.ofNat 28 (w % 2 ^ nbits), zeroOperand (BitVec.ofNat 28 (w % 2 ^ nbits))⟩

/-- What the decoder reads from a table word, on the hardware variant of `State.reset`
(assumptions 2 and 3). A number of more than 28 bits is no operation word. -/
def decodeTableWord (nbits w : Nat) : Option Instr :=
  if w % 2 ^ nbits < 2 ^ 28 then
    match decode Config.atReset.colorHw (OpWord.ofTable nbits w) with
    | .ok i => some i
    | .error _ => none
  else none

/-! The encoder. -/

/-- An RD word; its `data` field is 0. -/
def rdWord (arg : Addr) : OpWord := ⟨mkWord 0#8 0x0#4 arg, .none⟩

/-- A WR word. -/
def wrWord (arg : Addr) (data : Byte) : OpWord := ⟨mkWord data 0x1#4 arg, .none⟩

/-- An EV word. -/
def evWord (number : Byte) : OpWord := ⟨mkWord 0#8 0x2#4 (number.setWidth 16), .none⟩

/-- A CTL word with its operand. -/
def ctlWord (code : Addr) (op : Operand) : OpWord := ⟨mkWord 0#8 0x3#4 code, op⟩

/-- The word of an operation (rules R140 to R148). -/
def encode (i : Instr) : OpWord :=
  match i with
  | .rdVram off => rdWord (0b100#3 ++ off)
  | .wrVram off v => wrWord (0b100#3 ++ off) v
  | .rdOam off => rdWord (0xFE#8 ++ BitVec.ofNat 8 off.val)
  | .wrOam off v => wrWord (0xFE#8 ++ BitVec.ofNat 8 off.val) v
  | .rdLcdc => rdWord 0xFF40#16
  | .wrLcdc v => wrWord 0xFF40#16 v
  | .rdStat => rdWord 0xFF41#16
  | .wrStat v => wrWord 0xFF41#16 v
  | .wrStatDmg v => wrWord 0xFF41#16 v
  | .rdScy => rdWord 0xFF42#16
  | .wrScy v => wrWord 0xFF42#16 v
  | .rdScx => rdWord 0xFF43#16
  | .wrScx v => wrWord 0xFF43#16 v
  | .rdLy => rdWord 0xFF44#16
  | .wrLy v => wrWord 0xFF44#16 v
  | .rdLyc => rdWord 0xFF45#16
  | .wrLyc v => wrWord 0xFF45#16 v
  | .rdBgp => rdWord 0xFF47#16
  | .wrBgp v => wrWord 0xFF47#16 v
  | .rdObp0 => rdWord 0xFF48#16
  | .wrObp0 v => wrWord 0xFF48#16 v
  | .rdObp1 => rdWord 0xFF49#16
  | .wrObp1 v => wrWord 0xFF49#16 v
  | .rdWy => rdWord 0xFF4A#16
  | .wrWy v => wrWord 0xFF4A#16 v
  | .rdWx => rdWord 0xFF4B#16
  | .wrWx v => wrWord 0xFF4B#16 v
  | .rdHdma1 => rdWord 0xFF51#16
  | .wrHdma1 v => wrWord 0xFF51#16 v
  | .rdHdma2 => rdWord 0xFF52#16
  | .wrHdma2 v => wrWord 0xFF52#16 v
  | .rdHdma3 => rdWord 0xFF53#16
  | .wrHdma3 v => wrWord 0xFF53#16 v
  | .rdHdma4 => rdWord 0xFF54#16
  | .wrHdma4 v => wrWord 0xFF54#16 v
  | .rdHdma5 => rdWord 0xFF55#16
  | .wrHdma5 v => wrWord 0xFF55#16 v
  | .rdBcps => rdWord 0xFF68#16
  | .wrBcps v => wrWord 0xFF68#16 v
  | .rdBcpd => rdWord 0xFF69#16
  | .wrBcpd v => wrWord 0xFF69#16 v
  | .rdOcps => rdWord 0xFF6A#16
  | .wrOcps v => wrWord 0xFF6A#16 v
  | .rdOcpd => rdWord 0xFF6B#16
  | .wrOcpd v => wrWord 0xFF6B#16 v
  | .evGlitchXfer => evWord 0x01
  | .evGlitchHblank => evWord 0x02
  | .evLine0Start => evWord 0x03
  | .evOamCont => evWord 0x04
  | .evXferStart => evWord 0x05
  | .evHblankPre => evWord 0x06
  | .evHblankStart => evWord 0x07
  | .evHblankEnd => evWord 0x08
  | .evVblankCont => evWord 0x09
  | .evVblankLine => evWord 0x0A
  | .evL153Cont => evWord 0x0B
  | .evL153End => evWord 0x0C
  | .evL153FrameEnd => evWord 0x0D
  | .reset => ctlWord 0x0000#16 .none
  | .oamBatch ws => ctlWord 0x0001#16 (.oam ws)
  | .vramBatch ws => ctlWord 0x0002#16 (.vram ws)
  | .advance n => ctlWord 0x0003#16 (.time n)

end Sys2Proof
end

