-- ==== Sys2Proof/Machine/State.lean ====
section
/-! DEFINITION. The machine's state as plain data (spec/10_state.md), the inputs the outside world can
give it and the outputs it gives (spec/20_memory.md section 5), the reasons a step can stop, and the
state right after reset (spec/70_reset_and_hazards.md rule R801). -/

namespace Sys2Proof.Machine

/-- A byte store: the cells that differ from what an unlisted address reads as, by rising address.
`Memory.wf` states the canonical form; the operations are in Machine/Ops.lean. -/
abbrev Memory := List Host.Cell

/-- The internal phase (rule R46). -/
inductive Phase where
  | off
  | glitchWait
  | glitchXfer
  | glitchHblank
  | oam
  | xfer
  | hblank
  | vblank
  | l153
  deriving DecidableEq, Repr

/-- The externally visible mode (rule R47); its 2-bit code is `Mode.code` in Machine/Flags.lean. -/
inductive Mode where
  | hblank
  | vblank
  | oamSearch
  | transfer
  deriving DecidableEq, Repr

/-- The pending interrupt source `src` (rule R48). -/
inductive IntSrc where
  | none
  | hblank
  | vblank
  | oam
  deriving DecidableEq, Repr

/-- The four region-lock outputs (rule R55). -/
structure Locks where
  oamR : Bool
  oamW : Bool
  vramR : Bool
  vramW : Bool
  deriving DecidableEq, Repr

/-- The HDMA/GDMA controller (rule R62). -/
structure Hdma where
  src : Addr
  dst : Addr
  /-- remaining blocks, 0 to 128 -/
  rem : Nat
  active : Bool
  paused : Bool
  complete : Bool
  deriving DecidableEq, Repr

/-- The three colourisation tables, `none` until captured (rule R56). -/
structure Colz where
  bgp : Option ShadeTable
  obp0 : Option ShadeTable
  obp1 : Option ShadeTable
  deriving DecidableEq, Repr

/-- The message of the block's only `log` call (rules R221, R714). -/
inductive LogMsg where
  /-- "LCD disabled outside vertical blank" -/
  | lcdDisabledOutsideVblank
  deriving DecidableEq, Repr

/-- The block's outputs (rule R64). -/
inductive Output where
  | irqVblank
  | irqStat
  | frame (fb : FrameBuffer)
  | setLy (v : Byte)
  | advance (n : Nat)
  | log (m : LogMsg)
  /-- the four lock outputs changed to these levels -/
  | locks (l : Locks)
  deriving DecidableEq, Repr

/-- What the outside world does next: it issues an operation, or one of the inputs the block reads at
the moment of use changes (rules R14, R15, R16, R22), or scheduler time passes without a callback. -/
inductive Input where
  /-- a CPU access, a scheduled event's firing, or a control operation -/
  | op (w : OpWord)
  /-- time passes, no further than the pending event's due time (assumption 6) -/
  | elapse (n : Nat)
  /-- the Bus's VRAM bank select changes (rule R14) -/
  | vramBank (b : Fin 2)
  /-- the Scheduler's speed changes (rule R15) -/
  | doubleSpeed (b : Bool)
  /-- the Bus is known to answer `v` at `a` from now on (rule R16) -/
  | busCell (a : Addr) (v : Byte)
  /-- what the Bus answers at `a` is unknown from now on (rule R16) -/
  | busForget (a : Addr)
  deriving DecidableEq, Repr

/-- The state of the machine. The first group is the record of rule R30, field by field; the second is
what stands outside the block and the block reads (00_scope.md rules R8 to R17, R22); the third is the
model's own. -/
structure State where
  -- the block (rule R30)
  lcdc : Byte
  statEn : BitVec 4
  mode : Mode
  phase : Phase
  pending : Option (Event × Nat)
  src : IntSrc
  statLine : Bool
  ly : Byte
  cmp : Option Byte
  lyc : Byte
  scy : Byte
  scx : Byte
  wy : Byte
  wx : Byte
  penalty : Nat
  windowLine : Byte
  firstFrame : Bool
  locks : Locks
  bgp : Byte
  obp0 : Byte
  obp1 : Byte
  colz : Colz
  bcps : Byte
  ocps : Byte
  bgCram : Cram
  objCram : Cram
  oam : Memory
  /-- both banks: offset `off` of bank `b` is at `0x2000 * b + off` -/
  vram : Memory
  hdma : Hdma
  fb : FrameBuffer
  -- outside the block, read by it
  cfg : Config
  now : Nat
  vramBank : Fin 2
  doubleSpeed : Bool
  /-- what the Bus is known to answer, by rising address; elsewhere its answer is a free value -/
  bus : List Host.Cell
  inputs : List Input
  -- what the block has put out, oldest first, each with its time (rule R64)
  outputs : List (Nat × Output)
  /-- the byte the last RD returned to the CPU (rule R141) -/
  result : Option Byte
  -- the model's own
  /-- how many free Bus bytes have been read (assumption 4) -/
  busCount : Nat
  /-- units the operation now running has asked the Scheduler to advance; 0 between operations -/
  charge : Nat
  deriving DecidableEq, Repr

/-- The block has no fault: "There are no fatal states; the component must never panic/abort on any
input sequence" (rules R23, R700), and spec/93_implementation_defined.md: "No case in this block is
`fault` or `stuck`". So no step raises one. -/
inductive Fault : Type
  deriving DecidableEq, Repr

/-- Why a step has no meaning. -/
inductive Refusal where
  /-- An instruction of the table without a meaning yet; raised by `exec` alone. Safe. -/
  | notModelled (mnemonic : String)
  /-- The next input is a word that spells no operation (rule R149); raised by `step`. Safe: the spec
  refuses it too. -/
  | undecodable (why : DecodeError)
  /-- An EV operation whose event is not pending, or not due now (rules R149, R231); raised by the EV
  meanings. Safe: the spec refuses it too. -/
  | eventNotDue (e : Event)
  /-- A batch with an entry out of range, refused whole (rules R146, R150); raised by the batch
  meanings. Safe: the spec refuses it too. -/
  | batchEntryOutOfRange
  deriving DecidableEq, Repr

/-- All four locks open. -/
def Locks.open : Locks := ⟨false, false, false, false⟩

/-- Every field of rule R30 at its reset value (rule R801), for a configuration; outside the block, no
input is waiting, no time has passed, and nothing is known of the Bus. -/
def State.powerOn (cfg : Config) : State where
  lcdc := 0x00
  statEn := 0b0000
  mode := .hblank
  phase := .off
  pending := none
  src := .none
  statLine := false
  ly := 0
  cmp := none
  lyc := 0x00
  scy := 0x00
  scx := 0x00
  wy := 0x00
  wx := 0x00
  penalty := 0
  windowLine := 0
  firstFrame := false
  locks := Locks.open
  bgp := 0x00
  obp0 := 0x00
  obp1 := 0x00
  colz := ⟨none, none, none⟩
  bcps := 0x00
  ocps := 0x00
  bgCram := cfg.bgCramInit
  objCram := cfg.objCramInit
  oam := []
  vram := []
  hdma := ⟨0x0000, 0x8000, 0, false, false, true⟩
  fb := Vector.replicate 144 (Vector.replicate 160 cfg.blank)
  cfg := cfg
  now := 0
  vramBank := 0
  doubleSpeed := false
  bus := []
  inputs := []
  outputs := []
  result := none
  busCount := 0
  charge := 0

/-- The machine right after reset (rule R801, assumption 2). -/
def State.reset : State := State.powerOn Config.atReset

end Sys2Proof.Machine
end

