-- ==== Sys2Proof/Machine/Ops.lean ====
section
/-! DEFINITION. The named operations over stores, outputs and the Scheduler that every meaning is
written with (spec/00_scope.md rule R20), the Bus oracle and the region locks. The block raises no
exception and returns from none (rules R700, R707); what it raises are the two interrupt requests of
rule R701, `raiseVblank` and `raiseStat`, which change nothing but the output history. -/

namespace Sys2Proof.Machine

/-- What a meaning answers. -/
abbrev Result := Host.Outcome State Fault Refusal

/-! ## Byte stores -/

/-- What an address that no cell lists reads as: reset clears the stores to zero (rules R413, R467,
R801). -/
def Memory.background : Byte := 0x00

/-- The value of the cell at `a`, if one is listed. -/
def cellAt (m : List Host.Cell) (a : Nat) : Option Byte :=
  match m with
  | [] => none
  | (b, v) :: rest => if a = b then some v else cellAt rest a

/-- The list with the cell at `a` set, kept by rising address. -/
def cellSet (m : List Host.Cell) (a : Nat) (v : Byte) : List Host.Cell :=
  match m with
  | [] => [(a, v)]
  | (b, w) :: rest =>
    if a < b then (a, v) :: (b, w) :: rest
    else if a = b then (a, v) :: rest
    else (b, w) :: cellSet rest a v

/-- The list without a cell at `a`. -/
def cellErase (m : List Host.Cell) (a : Nat) : List Host.Cell :=
  match m with
  | [] => []
  | (b, w) :: rest => if a = b then rest else (b, w) :: cellErase rest a

/-- `MemRead` of one byte (rule R20). -/
def Memory.read (m : Memory) (a : Nat) : Byte := (cellAt m a).getD Memory.background

/-- `MemWrite` of one byte (rule R20). -/
def Memory.write (m : Memory) (a : Nat) (v : Byte) : Memory :=
  if v = Memory.background then cellErase m a else cellSet m a v

/-- Addresses strictly rising, all at least `lo`. -/
def cellsRising (lo : Nat) (m : List Host.Cell) : Bool :=
  match m with
  | [] => true
  | (b, _) :: rest => decide (lo ≤ b) && cellsRising (b + 1) rest

/-- The canonical form of a store of `size` bytes: addresses strictly rising and below `size`, and no
cell equal to what an unlisted address reads as. -/
def Memory.wf (size : Nat) (m : Memory) : Bool :=
  cellsRising 0 m && m.all fun c => decide (c.1 < size) && decide (c.2 ≠ Memory.background)

/-! ## Outputs (rule R64) -/

/-- Record an output at the current time. -/
def emit (o : Output) (s : State) : State := { s with outputs := s.outputs ++ [(s.now, o)] }

/-- `raise IRQ_VBLANK` (rules R122, R701). -/
def raiseVblank (s : State) : State := emit .irqVblank s

/-- `raise IRQ_STAT` (rules R122, R701). -/
def raiseStat (s : State) : State := emit .irqStat s

/-- `setLY(v)` (rule R20), the Bus's register set; the block's own `ly` is written beside it. -/
def setLY (v : Byte) (s : State) : State := emit (.setLy v) s

/-- `emitFrame(fb)` (rule R123). -/
def emitFrame (s : State) : State := emit (.frame s.fb) s

/-- `log(msg)` (rule R20): no effect on the block. -/
def log (m : LogMsg) (s : State) : State := emit (.log m) s

/-- `lockSet` (rule R20); "every change of the four lock outputs" is put out (rule R64), a call that
changes none is not (DESIGN CHOICE, assumption 10). -/
def lockSet (l : Locks) (s : State) : State :=
  if s.locks = l then s else emit (.locks l) { s with locks := l }

/-! ## The Scheduler (rules R20, R116, R117) -/

/-- `schedule(ev, d)`: `now` has not moved since the running operation began. -/
def schedule (e : Event) (d : Nat) (s : State) : State := { s with pending := some (e, s.now + d) }

/-- `deschedule()`. -/
def deschedule (s : State) : State := { s with pending := none }

/-- `advance(n)`: the request is put out now and takes effect when the operation ends (rule R117); an
operation's requests add up. -/
def advance (n : Nat) (s : State) : State :=
  emit (.advance n) { s with charge := s.charge + n }

/-! ## The CPU's data bus -/

/-- An RD returns its byte to the CPU (rule R141) and changes nothing of the block (rule R106). -/
def respond (v : Byte) (s : State) : State := { s with result := some v }

/-! ## VRAM, OAM and the Bus -/

/-- The VRAM bank in use: the Bus's input, "always 0 when `COLOR_HW = false`" (rule R14). -/
def bankInUse (s : State) : Fin 2 := if s.cfg.colorHw then s.vramBank else 0

/-- Where byte `off` of bank `b` stands in `State.vram` (rule R59). -/
def vramKey (b : Fin 2) (off : Nat) : Nat := 0x2000 * b.val + off

/-- `vram[b][off]` (rule R59). -/
def vramAt (s : State) (b : Fin 2) (off : Nat) : Byte := s.vram.read (vramKey b off)

/-- `vram[b][off] <- v` (rule R59): the store's own write path, without locks (rule R466). -/
def vramSet (b : Fin 2) (off : VOff) (v : Byte) (s : State) : State :=
  { s with vram := s.vram.write (vramKey b off.toNat) v }

/-- `oam[off]` (rule R57). -/
def oamAt (s : State) (off : Nat) : Byte := s.oam.read off

/-- `oam[off] <- v` (rule R57), without locks. -/
def oamSet (off : Fin 160) (v : Byte) (s : State) : State := { s with oam := s.oam.write off.val v }

/-- The Bus's answer outside the block's VRAM: what it is known to be, or a free value (rule R16). -/
def busOutside (s : State) (a : Addr) : Byte :=
  match cellAt s.bus a.toNat with
  | some v => v
  | none => Config.busByte s.busCount a

/-- `busRead(a)` (rule R16): VRAM addresses give the block's own byte in the bank in use. -/
def busRead (s : State) (a : Addr) : Byte :=
  if isVramArg a then vramAt s (bankInUse s) (a.extractLsb' 0 13).toNat else busOutside s a

/-- The next free Bus byte is another one. -/
def busTick (s : State) : State := { s with busCount := s.busCount + 1 }

end Sys2Proof.Machine
end

