-- ==== Sys2Proof/Machine/Operands.lean ====
section
/-! DEFINITION. Operand assembly and data formats: the fields every write rule extracts (rule R145),
the LCDC flags (rules R32, R33), sprite and map attributes (rules R57, R58, R60), tile addressing and
decoding (rules R453, R460 to R463), colour words (rules R61, R631). -/

namespace Sys2Proof.Machine

/-! ## LCDC (rules R32, R33) -/

/-- LCDC bit 7. -/
def lcdOn (s : State) : Bool := s.lcdc.getLsbD 7

/-- LCDC bit 6. -/
def winMapHi (s : State) : Bool := s.lcdc.getLsbD 6

/-- LCDC bit 5. -/
def winOn (s : State) : Bool := s.lcdc.getLsbD 5

/-- LCDC bit 4. -/
def unsignedTiles (s : State) : Bool := s.lcdc.getLsbD 4

/-- LCDC bit 3. -/
def bgMapHi (s : State) : Bool := s.lcdc.getLsbD 3

/-- LCDC bit 2: the object height. -/
def objHeight (s : State) : Nat := if s.lcdc.getLsbD 2 then 16 else 8

/-- LCDC bit 1. -/
def objOn (s : State) : Bool := s.lcdc.getLsbD 1

/-- LCDC bit 0. -/
def bgOn (s : State) : Bool := s.lcdc.getLsbD 0

/-! ## The configuration -/

/-- `colorMode = COLOR_HW ∧ COLOR_CART` (rule R9). -/
def colorMode (s : State) : Bool := s.cfg.colorHw && s.cfg.colorCart

/-- `LINE_EXTRA` in units (rule R11). -/
def lineExtra (s : State) : Nat := if s.cfg.lineExtra4 then 4 else 0

/-! ## Fields of written bytes (rule R145) -/

/-- STAT bits 6–3. -/
def statEnables (v : Byte) : BitVec 4 := v.extractLsb' 3 4

/-- HDMA5 bit 7: HBlank-gated when set. -/
def hdmaMode (v : Byte) : Bool := v.getLsbD 7

/-- HDMA5 bits 6–0 plus one: the length in blocks. -/
def hdmaBlocks (v : Byte) : Nat := (v.extractLsb' 0 7).toNat + 1

/-- Out of the echo-RAM mirror (rules R501, R502). -/
def echoFold (a : Addr) : Addr := if 0xE000#16 ≤ a then a &&& 0xDFFF#16 else a

/-- BCPS and OCPS as stored: bit 6 is dropped (rules R42, R622). -/
def paletteIndexStored (v : Byte) : Byte := v &&& 0xBF#8

/-- The index, bits 5–0 (rule R42). -/
def paletteIndex (ps : Byte) : Fin 64 := (ps.extractLsb' 0 6).toFin

/-- The index register after a data write: the index moves by one modulo 64, bit 7 stays (rules R621,
R626, R628). -/
def paletteIndexNext (ps : Byte) : Byte :=
  (ps &&& 0x80#8) ||| BitVec.ofNat 8 (((paletteIndex ps).val + 1) % 64)

/-- The scroll penalty, on naturals (rule R52). -/
def scrollPenalty (scx : Byte) : Nat := ((scx.toNat % 8) + 3) &&& 0xFC

/-! ## Palettes -/

/-- The pixel of a shade. -/
def shade (t : ShadeTable) (i : BitVec 2) : Rgb :=
  if i = 0#2 then t.s0 else if i = 1#2 then t.s1 else if i = 2#2 then t.s2 else t.s3

/-- `pal[2*idx+1 : 2*idx]` (rule R39). -/
def paletteField (pal : Byte) (idx : BitVec 2) : BitVec 2 := pal.extractLsb' (2 * idx.toNat) 2

/-- A monochrome palette's context (rules R56, R600). -/
inductive PalCtx where
  | bgp
  | obp0
  | obp1
  deriving DecidableEq, Repr

/-- `colz[ctx]` (rule R56). -/
def colzOf (c : Colz) (ctx : PalCtx) : Option ShadeTable :=
  match ctx with
  | .bgp => c.bgp
  | .obp0 => c.obp0
  | .obp1 => c.obp1

/-- `colz[ctx] <- some t` (rule R616). -/
def colzSet (c : Colz) (ctx : PalCtx) (t : ShadeTable) : Colz :=
  match ctx with
  | .bgp => { c with bgp := some t }
  | .obp0 => { c with obp0 := some t }
  | .obp1 => { c with obp1 := some t }

/-- `cramWord` (rule R631): the low byte at the even index, bit 15 ignored. -/
def cramWord (cram : Cram) (p : BitVec 3) (idx : BitVec 2) : Rgb15 :=
  let lo := cram[8 * p.toNat + 2 * idx.toNat]'(by have := p.isLt; have := idx.isLt; omega)
  let hi := cram[8 * p.toNat + 2 * idx.toNat + 1]'(by have := p.isLt; have := idx.isLt; omega)
  (hi ++ lo).extractLsb' 0 15

/-- A 5-bit channel as 8 bits, `(c << 3) | (c >> 2)` (rule R632). -/
def expand5 (c : BitVec 5) : Byte := c ++ c.extractLsb' 2 3

/-- `RGB5TO8` (rules R13, R632): red is bits 4–0, green 9–5, blue 14–10. -/
def rgb5to8 (conv : RgbConv) (w : Rgb15) : Rgb :=
  match conv with
  | .expand => ⟨expand5 (w.extractLsb' 0 5), expand5 (w.extractLsb' 5 5), expand5 (w.extractLsb' 10 5)⟩
  | .other k => Config.rgb5to8 k w

/-- `cramColor` (rule R631). -/
def cramColor (s : State) (cram : Cram) (p : BitVec 3) (idx : BitVec 2) : Rgb :=
  rgb5to8 s.cfg.rgb (cramWord cram p idx)

/-- `monoTable` (rule R600). -/
def monoTable (s : State) (ctx : PalCtx) : ShadeTable := (colzOf s.colz ctx).getD s.cfg.gray

/-- `monoColor` (rule R600). -/
def monoColor (s : State) (ctx : PalCtx) (pal : Byte) (idx : BitVec 2) : Rgb :=
  shade (monoTable s ctx) (paletteField pal idx)

/-! ## Sprites (rules R57, R58, R403) -/

/-- A decoded sprite. -/
structure Sprite where
  y : Byte
  x : Byte
  tile : Byte
  behindBG : Bool
  yflip : Bool
  xflip : Bool
  dmgPal : Bool
  bank : Bool
  cgbPal : BitVec 3
  deriving DecidableEq, Repr

/-- `sprite(k)` (rule R403). -/
def sprite (s : State) (k : Nat) : Sprite :=
  let attr := oamAt s (4 * k + 3)
  { y := oamAt s (4 * k)
    x := oamAt s (4 * k + 1)
    tile := oamAt s (4 * k + 2)
    behindBG := attr.getLsbD 7
    yflip := attr.getLsbD 6
    xflip := attr.getLsbD 5
    dmgPal := attr.getLsbD 4
    bank := attr.getLsbD 3
    cgbPal := attr.extractLsb' 0 3 }

/-! ## Tiles and maps (rules R59, R60, R453, R460 to R463) -/

/-- The number of a bank bit. -/
def bankOf (b : Bool) : Fin 2 := if b then 1 else 0

/-- The colour index of column `c` (0 to 7) of a tile row from its two bit planes: bit 7 is column 0
(rules R315, R461). -/
def planePixel (lo hi : Byte) (c : Nat) : BitVec 2 :=
  BitVec.ofBool (hi.getLsbD (7 - c)) ++ BitVec.ofBool (lo.getLsbD (7 - c))

/-- The colour index of row `r`, column `c` of the tile whose 16 bytes start at offset `a` of bank
`b`. -/
def tilePixelAt (s : State) (b : Fin 2) (a r c : Nat) : BitVec 2 :=
  planePixel (vramAt s b (a + 2 * r)) (vramAt s b (a + 2 * r + 1)) c

/-- `tilePixel(b, n, r, c)` (rule R460). -/
def tilePixel (s : State) (b : Fin 2) (n r c : Nat) : BitVec 2 := tilePixelAt s b (16 * n) r c

/-- `bgTileAddr(id)` (rule R462). -/
def bgTileAddr (s : State) (id : Byte) : Nat :=
  if unsignedTiles s then 16 * id.toNat else (0x1000 + 16 * id.toInt).toNat

/-- A tile-map entry (rules R60, R463). -/
structure MapEntry where
  id : Byte
  prio : Bool
  yflip : Bool
  xflip : Bool
  bank : Bool
  pal : BitVec 3
  deriving DecidableEq, Repr

/-- The offset of tile map 0 or 1 (rules R59, R314, R463). -/
def mapBase (hi : Bool) : Nat := if hi then 0x1C00 else 0x1800

/-- `mapEntry(m, R, C)` (rules R313, R463): the attributes are 0 outside colour mode. -/
def mapEntry (s : State) (hi : Bool) (row col : Nat) : MapEntry :=
  let e := mapBase hi + 32 * row + col
  let attr := if colorMode s then vramAt s 1 e else 0x00#8
  { id := vramAt s 0 e
    prio := attr.getLsbD 7
    yflip := attr.getLsbD 6
    xflip := attr.getLsbD 5
    bank := attr.getLsbD 3
    pal := attr.extractLsb' 0 3 }

/-- What a VRAM offset holds (rule R453). -/
inductive VramRegion where
  /-- byte `byte` of tile `tile` -/
  | tileData (tile byte : Nat)
  /-- entry `entry` of map 0 -/
  | map0 (entry : Nat)
  /-- entry `entry` of map 1 -/
  | map1 (entry : Nat)
  deriving DecidableEq, Repr

/-- The region of a VRAM offset (rule R453). -/
def vramRegion (off : VOff) : VramRegion :=
  if off.toNat < 0x1800 then .tileData (off.toNat / 16) (off.toNat % 16)
  else if off.toNat < 0x1C00 then .map0 (off.toNat - 0x1800)
  else .map1 (off.toNat - 0x1C00)

end Sys2Proof.Machine
end

