-- ==== Sys2Proof/Machine/Flags.lean ====
section
/-! DEFINITION. The status flags: the mode code, LY=LYC, the STAT sources and the edge-triggered STAT
line, the STAT read value (spec/10_state.md rules R34, R47, R51; spec/41_state_machine.md rules R210,
R211). -/

namespace Sys2Proof.Machine

/-- The 2-bit code of the mode field (rule R47). -/
def Mode.code (m : Mode) : BitVec 2 :=
  match m with
  | .hblank => 0
  | .vblank => 1
  | .oamSearch => 2
  | .transfer => 3

/-- `lycMatch`, derived, never stored (rule R51). -/
def lycMatch (s : State) : Bool := s.cmp == some s.lyc

/-- `statSources()` (rule R210). -/
def statSources (s : State) : Bool :=
  (s.statEn.getLsbD 3 && lycMatch s)
  || (s.statEn.getLsbD 0 && s.src == .hblank)
  || (s.statEn.getLsbD 1 && s.src == .vblank)
  || (s.statEn.getLsbD 2 && s.src == .oam)

/-- `recompute()` (rule R211): the interrupt is raised on a rising edge only. -/
def recompute (s : State) : State :=
  if statSources s && !s.statLine then { raiseStat s with statLine := true }
  else { s with statLine := statSources s }

/-- The STAT read value (rules R34, R214): bit 7, the enables, LY=LYC, the mode. -/
def statRead (s : State) : Byte :=
  1#1 ++ s.statEn ++ BitVec.ofBool (lycMatch s) ++ s.mode.code

end Sys2Proof.Machine
end

