-- ==== Sys2Proof/Machine/HdmaEngine.lean ====
section
/-! DEFINITION. The HDMA/GDMA engine: the block copy, the two transfers, the HBlank opportunity and the
time charge (spec/45_hdma.md sections 4 and 5). The region locks do not apply (rule R514). -/

namespace Sys2Proof.Machine

/-- Units a transferred byte costs (rules R512, R520). -/
def unitsPerByte (s : State) : Nat := if s.doubleSpeed then 4 else 2

/-- Units a block costs (rule R520). -/
def blockCost (s : State) : Nat := 16 * unitsPerByte s

/-- The VRAM offset of byte `i` of the destination block: `(hdmaDst − 0x8000) + i` (rule R513),
confined to the VRAM window as every address of the block is masked (rule R23, assumption 18). -/
def hdmaOffset (s : State) (i : Nat) : VOff :=
  (s.hdma.dst - 0x8000#16 + BitVec.ofNat 16 i).setWidth 13

/-- Byte `i` of a block: read through the Bus, written by the store's own path (rules R466, R513). -/
def copyByte (s : State) (i : Nat) : State :=
  busTick (vramSet (bankInUse s) (hdmaOffset s i) (busRead s (s.hdma.src + BitVec.ofNat 16 i)) s)

/-- `hdmaDst` after a block (rule R513). -/
def hdmaDstNext (dst : Addr) : Addr := if dst = 0x9FF0#16 then 0x8000#16 else dst + 16#16

/-- `copyBlock()` (rule R513). -/
def copyBlock (s : State) : State :=
  let t := (List.range 16).foldl copyByte s
  { t with hdma := { t.hdma with src := t.hdma.src + 16#16, dst := hdmaDstNext t.hdma.dst } }

/-- `n` blocks, one after another (rule R512). -/
def copyBlocks (n : Nat) (s : State) : State :=
  match n with
  | 0 => s
  | k + 1 => copyBlocks k (copyBlock s)

/-- The counter's update after a block, with completion at 0 (rules R513, R516). -/
def countBlock (h : Hdma) : Hdma :=
  if h.rem - 1 = 0 then { h with rem := h.rem - 1, active := false, complete := true }
  else { h with rem := h.rem - 1 }

/-- `hdmaBlock()` (rule R513). -/
def hdmaBlock (s : State) : State :=
  let t := copyBlock s
  advance (blockCost t) { t with hdma := countBlock t.hdma }

/-- `gdma(n)` (rule R512). -/
def gdma (n : Nat) (s : State) : State :=
  let t := copyBlocks n { s with hdma := { s.hdma with active := false, paused := false } }
  advance (n * blockCost t) { t with hdma := { t.hdma with rem := 0, complete := true } }

/-- An HBlank entry copies a block now (rule R515). -/
def hdmaDue (s : State) : Bool :=
  s.cfg.colorHw && colorMode s && s.hdma.active && !s.hdma.paused

/-- `hdmaHBlankOpportunity()` (rule R515). -/
def hdmaHBlankOpportunity (s : State) : State := if hdmaDue s then hdmaBlock s else s

/-- A started transfer: the counter at the requested length, active, not paused (rule R505). -/
def hdmaArm (n : Nat) (s : State) : State :=
  { s with hdma := { s.hdma with rem := n, active := true, paused := false, complete := false } }

/-- A start copies one block at once: with the LCD off, or in horizontal blank (rule R505). -/
def hdmaImmediate (s : State) : Bool :=
  !lcdOn s || s.phase == .hblank || s.phase == .glitchHblank

/-- WR.HDMA5 with bit 7 set (rule R505). -/
def hdmaStart (n : Nat) (s : State) : State :=
  let t := hdmaArm n s
  if hdmaImmediate t then hdmaBlock t else t

/-- WR.HDMA5 with bit 7 clear: pause a transfer in progress, else a general-purpose transfer (rule
R505). -/
def hdmaPauseOrGdma (n : Nat) (s : State) : State :=
  if s.hdma.active && !s.hdma.paused then { s with hdma := { s.hdma with paused := true } }
  else gdma n s

/-- The write to HDMA5, without its time charge (rule R505). -/
def hdma5Write (v : Byte) (s : State) : State :=
  if s.cfg.colorHw then
    if hdmaMode v then hdmaStart (hdmaBlocks v) s else hdmaPauseOrGdma (hdmaBlocks v) s
  else s

/-- The read of HDMA5 (rule R510). -/
def hdma5Read (s : State) : Byte :=
  if !s.cfg.colorHw then 0xFF
  else if s.hdma.complete then 0xFF
  else BitVec.ofBool s.hdma.paused ++ BitVec.ofNat 7 (s.hdma.rem - 1)

end Sys2Proof.Machine
end

