-- ==== Sys2Proof/Machine/Renderer.lean ====
section
/-! DEFINITION. The scanline renderer (spec/42_renderer.md sections 1 to 5). The passes are written
column by column: a column's pixel depends on no other column, so the scratch buffers of rule R301 are
the values passed from one pass to the next for that column (DEDUCED, assumption 18). -/

namespace Sys2Proof.Machine

/-- What the background and window passes leave in one column (rule R301). -/
structure Layer where
  idx : BitVec 2
  prio : Bool
  color : Rgb
  deriving DecidableEq, Repr

/-- `drawTilePixel` (rule R312): plane pixel (px, py) of a tile map. -/
def drawTilePixel (s : State) (mapHi : Bool) (px py : Nat) : Layer :=
  let e := mapEntry s mapHi (py / 8) (px / 8)
  let r := if e.yflip then 7 - py % 8 else py % 8
  let c := if e.xflip then 7 - px % 8 else px % 8
  let bank := if colorMode s then bankOf e.bank else 0
  let idx := tilePixelAt s bank (bgTileAddr s e.id) r c
  { idx := idx
    prio := e.prio
    color := if colorMode s then cramColor s s.bgCram e.pal idx else monoColor s .bgp s.bgp idx }

/-- `backgroundPass` at one column (rules R311, R317). -/
def backgroundColumn (s : State) (ly x : Nat) : Layer :=
  if !colorMode s && !bgOn s then ⟨0, false, shade (monoTable s .bgp) 0⟩
  else drawTilePixel s (bgMapHi s) ((x + s.scx.toNat) % 256) ((ly + s.scy.toNat) % 256)

/-- `windowVisible(ly)` (rule R320). -/
def windowVisible (s : State) (ly : Nat) : Bool :=
  winOn s && (colorMode s || bgOn s) && decide (s.wy.toNat ≤ ly) && decide (s.wx.toNat ≤ 166)

/-- `windowPass` at one column, over the background's pixel (rule R320). -/
def windowColumn (s : State) (ly x : Nat) (bg : Layer) : Layer :=
  if windowVisible s ly && decide (s.wx.toNat ≤ x + 7) then
    drawTilePixel s (winMapHi s) (x + 7 - s.wx.toNat) s.windowLine.toNat
  else bg

/-- The background and window of a column (rule R302). -/
def layerColumn (s : State) (ly x : Nat) : Layer := windowColumn s ly x (backgroundColumn s ly x)

/-- Sprite `k` covers line `ly`: `y ≤ ly + 16 < y + h` (rules R330, R404). -/
def spriteOnLine (s : State) (ly k : Nat) : Bool :=
  decide ((sprite s k).y.toNat ≤ ly + 16) && decide (ly + 16 < (sprite s k).y.toNat + objHeight s)

/-- The first ten sprites on the line, by table order (rule R330). -/
def selectedSprites (s : State) (ly : Nat) : List Nat :=
  ((List.range 40).filter (spriteOnLine s ly)).take 10

/-- The sprite's bitmap row on line `ly`, flipped over its full height (rule R332). -/
def spriteRow (s : State) (ly : Nat) (sp : Sprite) : Nat :=
  let row := ly + 16 - sp.y.toNat
  if sp.yflip then objHeight s - 1 - row else row

/-- The tile that holds row `row` of the sprite (rule R332). -/
def spriteTile (s : State) (row : Nat) (sp : Sprite) : Nat :=
  if objHeight s = 16 then (sp.tile &&& 0xFE#8).toNat + row / 8 else sp.tile.toNat

/-- The colour index of pixel `px` (0 to 7) of the sprite on line `ly` (rules R332, R465). -/
def spriteIdx (s : State) (ly : Nat) (sp : Sprite) (px : Nat) : BitVec 2 :=
  let row := spriteRow s ly sp
  let bank := if colorMode s then bankOf sp.bank else 0
  tilePixel s bank (spriteTile s row sp) (row % 8) (if sp.xflip then 7 - px else px)

/-- `beats(j, k)` (rule R334). -/
def beats (s : State) (j k : Nat) : Bool :=
  if colorMode s then decide (j < k)
  else decide ((sprite s j).x.toNat < (sprite s k).x.toNat)
    || (decide ((sprite s j).x.toNat = (sprite s k).x.toNat) && decide (j < k))

/-- `spriteColor` (rule R335). -/
def spriteColor (s : State) (sp : Sprite) (idx : BitVec 2) : Rgb :=
  if colorMode s then cramColor s s.objCram sp.cgbPal idx
  else if sp.dmgPal then monoColor s .obp1 s.obp1 idx
  else monoColor s .obp0 s.obp0 idx

/-- A column during the sprite pass: the sprite that claimed it and the colour there (rule R301). -/
structure Claim where
  owner : Option Nat
  color : Rgb
  deriving DecidableEq, Repr

/-- The background occludes a sprite's pixel (rule R333). -/
def occludes (s : State) (bg : Layer) (sp : Sprite) : Bool :=
  bgOn s && (bg.idx != 0) && (bg.prio || sp.behindBG)

/-- The column is claimed by a sprite that beats `k` (rule R333). -/
def claimedOver (s : State) (c : Claim) (k : Nat) : Bool :=
  match c.owner with
  | some j => beats s j k
  | none => false

/-- `spritePixel` (rule R333): the three checks in the source's order, then the write. -/
def spritePixel (s : State) (bg : Layer) (k : Nat) (idx : BitVec 2) (c : Claim) : Claim :=
  if idx = 0 then c
  else if occludes s bg (sprite s k) then c
  else if claimedOver s c k then c
  else ⟨some k, spriteColor s (sprite s k) idx⟩

/-- `drawSprite` at screen column `x` (rules R332, R405): the one pixel `px = x + 8 − x_k` of the
sprite that falls there, if any. -/
def drawSpriteColumn (s : State) (ly x : Nat) (bg : Layer) (c : Claim) (k : Nat) : Claim :=
  let sp := sprite s k
  if sp.x.toNat ≤ x + 8 ∧ x < sp.x.toNat then
    spritePixel s bg k (spriteIdx s ly sp (x + 8 - sp.x.toNat)) c
  else c

/-- `spritePass` at one column (rules R330, R336), over the sprites selected for the line. -/
def spriteColumn (s : State) (ly x : Nat) (sel : List Nat) (bg : Layer) : Rgb :=
  if objOn s then (sel.foldl (drawSpriteColumn s ly x bg) ⟨none, bg.color⟩).color else bg.color

/-- One row of the picture: background, then window, then sprites (rule R302). -/
def composeRow (s : State) (ly : Nat) : Row :=
  let sel := selectedSprites s ly
  Vector.ofFn fun x => spriteColumn s ly x.val sel (layerColumn s ly x.val)

/-- `composeLine(ly)` (rules R300, R302, R320): row `ly` of the frame buffer, and the window line
counter. The buffer has no row from 144 on, where no run composes (assumption 18). -/
def composeLine (ly : Nat) (s : State) : State :=
  { s with
    fb := if h : ly < 144 then s.fb.set ly (composeRow s ly) h else s.fb
    windowLine := if windowVisible s ly then s.windowLine + 1 else s.windowLine }

end Sys2Proof.Machine
end

