-- ==== Sys2Proof/Machine/Sequencer.lean ====
section
/-! DEFINITION. The phase controller: LCD enable and disable, and the handler of every scheduled event
(spec/41_state_machine.md sections 2 and 4 to 7), in the order of the rules' pseudocode. -/

namespace Sys2Proof.Machine

/-- Every lock set (rules R234, R243). -/
def Locks.all : Locks := ⟨true, true, true, true⟩

/-- `src <- x; recompute()`. -/
def setSrc (x : IntSrc) (s : State) : State := recompute { s with src := x }

/-- `cmp <- c; recompute()`. -/
def setCmp (c : Option Byte) (s : State) : State := recompute { s with cmp := c }

/-- `ly <- v; setLY(v)`. -/
def storeLY (v : Byte) (s : State) : State := setLY v { s with ly := v }

/-- The phase is one in which the LCD is expected to be switched off (rule R221). -/
def inVblank (p : Phase) : Bool := p == .vblank || p == .l153

/-- `lcdDisable()` (rule R221). -/
def lcdDisable (s : State) : State :=
  let s := if inVblank s.phase then s else log .lcdDisabledOutsideVblank s
  let s := storeLY 0 (deschedule s)
  let s := lockSet Locks.open { s with mode := .hblank, phase := .off }
  setSrc .none s

/-- `lcdEnable()` (rule R224). -/
def lcdEnable (s : State) : State :=
  let s := storeLY 0 s
  let s := setSrc .none { s with cmp := none }
  schedule .glitchXfer 76 { s with phase := .glitchWait, firstFrame := true, windowLine := 0 }

/-- The write to LCDC (rule R220). -/
def lcdcWrite (v : Byte) (s : State) : State :=
  let t := { s with lcdc := v }
  if !lcdOn s && lcdOn t then lcdEnable t
  else if lcdOn s && !lcdOn t then lcdDisable t
  else t

/-! ## The glitched line 0 (rules R234, R235) -/

/-- EV_GLITCH_XFER (rule R234). -/
def handleGlitchXfer (s : State) : State :=
  schedule .glitchHblank 172 (lockSet Locks.all { s with mode := .transfer, phase := .glitchXfer })

/-- EV_GLITCH_HBLANK (rule R235). -/
def handleGlitchHblank (s : State) : State :=
  let s := lockSet Locks.open { s with mode := .hblank, phase := .glitchHblank }
  schedule .line0Start 196 (hdmaHBlankOpportunity (setSrc .hblank s))

/-! ## Visible lines (rules R240 to R247) -/

/-- The pending source at a line start: the OAM source, except on line 0 (rules R12, R240). -/
def lineStartSrc (s : State) : IntSrc := if s.ly ≠ 0 ∨ s.cfg.line0OamSrc then .oam else .none

/-- `lineStart()` (rule R240): the mode is left unchanged. -/
def lineStart (s : State) : State :=
  let s := { setLY s.ly s with phase := .oam }
  let s := lockSet ⟨false, true, false, false⟩ s
  schedule .oamCont 4 (setSrc (lineStartSrc s) { s with cmp := none })

/-- EV_LINE0_START (rule R241). -/
def handleLine0Start (s : State) : State := lineStart { s with ly := 0 }

/-- EV_OAM_CONT (rule R242). -/
def handleOamCont (s : State) : State :=
  let s := lockSet ⟨true, false, false, false⟩ { s with mode := .oamSearch }
  schedule .xferStart 80 (setCmp (some s.ly) s)

/-- EV_XFER_START (rules R243, R244): the scroll penalty is sampled here. -/
def handleXferStart (s : State) : State :=
  let s := lockSet Locks.all { s with mode := .transfer, phase := .xfer }
  let s := setSrc .none s
  let s := { s with penalty := scrollPenalty s.scx }
  schedule .hblankPre (168 + s.penalty) s

/-- EV_HBLANK_PRE (rule R245). -/
def handleHblankPre (s : State) : State := schedule .hblankStart 4 (setSrc .hblank s)

/-- The delay from HBlank entry to the line's end, on naturals (rules R230, R246, assumption 19). -/
def hblankDelay (s : State) : Nat := 196 - s.penalty + lineExtra s

/-- EV_HBLANK_START (rule R246): unlock, compose, DMA. -/
def handleHblankStart (s : State) : State :=
  let s := lockSet Locks.open { s with mode := .hblank, phase := .hblank }
  let s := hdmaHBlankOpportunity (composeLine s.ly.toNat s)
  schedule .hblankEnd (hblankDelay s) s

/-- The first frame after LCD enable is handed out blank (rules R54, R250). -/
def blankFirstFrame (s : State) : State :=
  if s.firstFrame then
    { s with fb := Vector.replicate 144 (Vector.replicate 160 s.cfg.blank), firstFrame := false }
  else s

/-- The VBlank interrupt at line-144 entry, on revisions that raise it there (rules R10, R250). -/
def vblankAtEntry (s : State) : State := if s.cfg.vblankIrqLate then s else raiseVblank s

/-- `vblankEntry()` (rule R250). -/
def vblankEntry (s : State) : State :=
  let s := { setLY 144 s with phase := .vblank, cmp := none }
  let s := vblankAtEntry (setSrc .oam s)
  let s := emitFrame (blankFirstFrame s)
  schedule .vblankCont 4 { s with windowLine := 0 }

/-- EV_HBLANK_END (rule R247). -/
def handleHblankEnd (s : State) : State :=
  let s := { s with ly := s.ly + 1 }
  if s.ly = 144 then vblankEntry s else lineStart s

/-! ## Vertical blank (rules R251, R252) and line 153 (rules R255 to R259) -/

/-- The VBlank interrupt at the 4-unit mark of line 144, on revisions that raise it there (rules R10,
R251). -/
def vblankAtCont (s : State) : State :=
  if s.ly = 144 ∧ s.cfg.vblankIrqLate then raiseVblank s else s

/-- EV_VBLANK_CONT (rule R251). -/
def handleVblankCont (s : State) : State :=
  let s := setSrc .vblank { s with mode := .vblank, cmp := some s.ly }
  schedule .vblankLine 452 (vblankAtCont s)

/-- `line153Start()` (rule R255). -/
def line153Start (s : State) : State :=
  schedule .l153Cont 4 (setCmp none { setLY 153 s with phase := .l153 })

/-- EV_VBLANK_LINE (rule R252). -/
def handleVblankLine (s : State) : State :=
  let s := { s with ly := s.ly + 1 }
  if s.ly = 153 then line153Start s
  else schedule .vblankCont 4 (setCmp none (setLY s.ly s))

/-- EV_L153_CONT (rule R257). -/
def handleL153Cont (s : State) : State := schedule .l153End 4 (setCmp (some 153) s)

/-- EV_L153_END (rule R258). -/
def handleL153End (s : State) : State := schedule .l153FrameEnd 4 (setCmp none (storeLY 0 s))

/-- EV_L153_FRAME_END (rule R259). -/
def handleL153FrameEnd (s : State) : State := schedule .line0Start 444 (setCmp (some 0) s)

end Sys2Proof.Machine
end

