-- ==== Sys2Proof/Machine/Scheduler.lean ====
section
/-! DEFINITION. Firing an event, and the passage of scheduler time with the events that fall due in it
(spec/41_state_machine.md rules R231, R232; spec/20_memory.md rule R117). -/

namespace Sys2Proof.Machine

/-- The handler of an event (rule R230). -/
def handle (e : Event) (s : State) : State :=
  match e with
  | .glitchXfer => handleGlitchXfer s
  | .glitchHblank => handleGlitchHblank s
  | .line0Start => handleLine0Start s
  | .oamCont => handleOamCont s
  | .xferStart => handleXferStart s
  | .hblankPre => handleHblankPre s
  | .hblankStart => handleHblankStart s
  | .hblankEnd => handleHblankEnd s
  | .vblankCont => handleVblankCont s
  | .vblankLine => handleVblankLine s
  | .l153Cont => handleL153Cont s
  | .l153End => handleL153End s
  | .l153FrameEnd => handleL153FrameEnd s

/-- `fire(e)` (rule R231). -/
def fire (e : Event) (s : State) : State := handle e { s with pending := none }

/-- The pending event, if it is due by `target`. -/
def dueBy (target : Nat) (s : State) : Option (Event × Nat) :=
  match s.pending with
  | some (e, due) => if due ≤ target then some (e, due) else none
  | none => none

/-- The loop of `runUntil` (rule R232), with at most `fuel` events. A handler that charged c is followed
by `runUntil(due + c)`; that inner loop and the rest of the outer one fire the same events at the same
times as one loop whose target is the larger of the two (DEDUCED, assumption 7). -/
def runLoop (fuel : Nat) (target : Nat) (s : State) : State :=
  match fuel with
  | 0 => { s with now := max s.now target }
  | k + 1 =>
    match dueBy target s with
    | none => { s with now := max s.now target }
    | some (e, due) =>
      let t := fire e { s with now := due }
      runLoop k (max target (due + t.charge)) { t with charge := 0 }

/-- `runUntil(target)` (rule R232). The fuel is enough: events are at least 4 units apart, two by two
(assumption 7). -/
def runUntil (target : Nat) (s : State) : State := runLoop (target + 8) target { s with charge := 0 }

/-- The end of an operation: what it asked the Scheduler to advance takes effect, counted from the time
it began (rule R117). -/
def settle (s : State) : State := if s.charge = 0 then s else runUntil (s.now + s.charge) s

/-- The event is the pending one and due now (rules R143, R231). -/
def eventDue (e : Event) (s : State) : Bool := s.pending == some (e, s.now)

/-- An EV operation (rule R231): the pending event fires if it is this one and due now, and is refused
otherwise (rule R149). -/
def fireAdmitted (e : Event) (s : State) : Result :=
  if eventDue e s then .next (settle (fire e s)) else .refused (.eventNotDue e)

end Sys2Proof.Machine
end

