-- ==== Sys2Proof/Machine/Control.lean ====
section
/-! DEFINITION. The control operations: RESET (spec/70_reset_and_hazards.md rule R800), the batches
(spec/43_oam_store.md rule R412, spec/44_tile_store.md rule R452) and ADVANCE (spec/41_state_machine.md
rule R232). -/

namespace Sys2Proof.Machine

/-- RESET (rules R800, R801): every field of rule R30 at its reset value and the locks released. What
stands outside the block and the output history are not its to reset (assumption 11). -/
def execReset (s : State) : Result :=
  .next { State.powerOn s.cfg with
    now := s.now
    vramBank := s.vramBank
    doubleSpeed := s.doubleSpeed
    bus := s.bus
    inputs := s.inputs
    outputs := (lockSet Locks.open s).outputs
    result := s.result
    busCount := s.busCount
    charge := s.charge }

/-- One entry of an OAM batch: `oam[off] <- v` (rule R412). -/
def oamBatchWrite (s : State) (w : OamWrite) : State :=
  if h : w.off < 160 then oamSet ⟨w.off, h⟩ w.val s else s

/-- OAM_BATCH (rules R114, R412): in list order, without locks; refused whole when an entry is out of
range (rule R150). -/
def execOamBatch (ws : List OamWrite) (s : State) : Result :=
  if ws.all OamWrite.ok then .next (ws.foldl oamBatchWrite s) else .refused .batchEntryOutOfRange

/-- One entry of a VRAM batch: `vram[b][off] <- v` (rule R452). -/
def vramBatchWrite (s : State) (w : VramWrite) : State :=
  vramSet (if w.bank = 0 then 0 else 1) (BitVec.ofNat 13 w.off) w.val s

/-- VRAM_BATCH (rules R114, R452): in list order, without locks, in both banks on all hardware; refused
whole when an entry is out of range (rule R150). -/
def execVramBatch (ws : List VramWrite) (s : State) : Result :=
  if ws.all VramWrite.ok then .next (ws.foldl vramBatchWrite s) else .refused .batchEntryOutOfRange

/-- ADVANCE n (rule R232). -/
def execAdvance (n : Nat) (s : State) : Result := .next (runUntil (s.now + n) s)

end Sys2Proof.Machine
end

