-- ==== Sys2Proof/Machine/Events.lean ====
section
/-! DEFINITION. The EV operations (spec/41_state_machine.md rules R230 to R259): each fires its event if it is
pending and due now; the handlers are in Machine/Sequencer.lean. -/

namespace Sys2Proof.Machine

/-- EV_GLITCH_XFER (rules R231, R234). -/
def execEvGlitchXfer (s : State) : Result := fireAdmitted .glitchXfer s

/-- EV_GLITCH_HBLANK (rules R231, R235). -/
def execEvGlitchHblank (s : State) : Result := fireAdmitted .glitchHblank s

/-- EV_LINE0_START (rules R231, R241). -/
def execEvLine0Start (s : State) : Result := fireAdmitted .line0Start s

/-- EV_OAM_CONT (rules R231, R242). -/
def execEvOamCont (s : State) : Result := fireAdmitted .oamCont s

/-- EV_XFER_START (rules R231, R243). -/
def execEvXferStart (s : State) : Result := fireAdmitted .xferStart s

/-- EV_HBLANK_PRE (rules R231, R245). -/
def execEvHblankPre (s : State) : Result := fireAdmitted .hblankPre s

/-- EV_HBLANK_START (rules R231, R246). -/
def execEvHblankStart (s : State) : Result := fireAdmitted .hblankStart s

/-- EV_HBLANK_END (rules R231, R247). -/
def execEvHblankEnd (s : State) : Result := fireAdmitted .hblankEnd s

/-- EV_VBLANK_CONT (rules R231, R251). -/
def execEvVblankCont (s : State) : Result := fireAdmitted .vblankCont s

/-- EV_VBLANK_LINE (rules R231, R252). -/
def execEvVblankLine (s : State) : Result := fireAdmitted .vblankLine s

/-- EV_L153_CONT (rules R231, R257). -/
def execEvL153Cont (s : State) : Result := fireAdmitted .l153Cont s

/-- EV_L153_END (rules R231, R258). -/
def execEvL153End (s : State) : Result := fireAdmitted .l153End s

/-- EV_L153_FRAME_END (rules R231, R259). -/
def execEvL153FrameEnd (s : State) : Result := fireAdmitted .l153FrameEnd s

end Sys2Proof.Machine
end

