-- ==== Sys2Proof/Machine/HdmaRegs.lean ====
section
/-! DEFINITION. The DMA registers (spec/45_hdma.md sections 1 to 3). -/

namespace Sys2Proof.Machine

/-- RD.HDMA1 (rule R506). -/
def execRdHdma1 (s : State) : Result := .next (respond 0xFF s)

/-- RD.HDMA2 (rule R507). -/
def execRdHdma2 (s : State) : Result := .next (respond 0xFF s)

/-- RD.HDMA3 (rule R508). -/
def execRdHdma3 (s : State) : Result := .next (respond 0xFF s)

/-- RD.HDMA4 (rule R509). -/
def execRdHdma4 (s : State) : Result := .next (respond 0xFF s)

/-- RD.HDMA5 (rule R510). -/
def execRdHdma5 (s : State) : Result := .next (respond (hdma5Read s) s)

/-- The source address registers' write: only colour hardware has them (rules R500, R501, R502). -/
def hdmaSrcWrite (src : Addr) (s : State) : State :=
  if s.cfg.colorHw then { s with hdma := { s.hdma with src := echoFold src } } else s

/-- The destination address registers' write: only colour hardware has them (rules R500, R503, R504). -/
def hdmaDstWrite (dst : Addr) (s : State) : State :=
  if s.cfg.colorHw then { s with hdma := { s.hdma with dst := dst } } else s

/-- WR.HDMA1, the source high byte (rule R501). -/
def execWrHdma1 (v : Byte) (s : State) : Result :=
  .next (hdmaSrcWrite ((v.setWidth 16 <<< 8) ||| (s.hdma.src &&& 0x00F0#16)) s)

/-- WR.HDMA2, the source low byte (rule R502). -/
def execWrHdma2 (v : Byte) (s : State) : Result :=
  .next (hdmaSrcWrite ((s.hdma.src &&& 0xFF00#16) ||| (v &&& 0xF0#8).setWidth 16) s)

/-- WR.HDMA3, the destination high byte (rule R503). -/
def execWrHdma3 (v : Byte) (s : State) : Result :=
  .next (hdmaDstWrite
    (0x8000#16 ||| ((v &&& 0x1F#8).setWidth 16 <<< 8) ||| (s.hdma.dst &&& 0x00F0#16)) s)

/-- WR.HDMA4, the destination low byte (rule R504). -/
def execWrHdma4 (v : Byte) (s : State) : Result :=
  .next (hdmaDstWrite ((s.hdma.dst &&& 0xFF00#16) ||| (v &&& 0xF0#8).setWidth 16) s)

/-- WR.HDMA5, with its time charge (rules R505, R520). -/
def execWrHdma5 (v : Byte) (s : State) : Result := .next (settle (hdma5Write v s))

end Sys2Proof.Machine
end

