-- ==== Sys2Proof/Machine/LcdRegs.lean ====
section
/-! DEFINITION. The operations on LCDC, STAT, LY and LYC (spec/41_state_machine.md section 2). -/

namespace Sys2Proof.Machine

/-- RD.LCDC (rule R222). -/
def execRdLcdc (s : State) : Result := .next (respond s.lcdc s)

/-- WR.LCDC (rule R220). -/
def execWrLcdc (v : Byte) (s : State) : Result := .next (lcdcWrite v s)

/-- RD.STAT (rule R214). -/
def execRdStat (s : State) : Result := .next (respond (statRead s) s)

/-- WR.STAT on colour hardware (rule R215). -/
def execWrStat (v : Byte) (s : State) : Result :=
  .next (recompute { s with statEn := statEnables v })

/-- WR.STAT on non-colour hardware: the stat write bug (rule R216). Which of the two operations the
word spells is the decoder's choice (assumption 3). -/
def execWrStatDmg (v : Byte) (s : State) : Result :=
  let t := recompute { s with statEn := 0b1111#4 }
  .next (recompute { t with statEn := statEnables v })

/-- RD.LY (rule R219). -/
def execRdLy (s : State) : Result := .next (respond s.ly s)

/-- WR.LY, a no-op (rule R218). -/
def execWrLy (_v : Byte) (s : State) : Result := .next s

/-- RD.LYC (rule R223). -/
def execRdLyc (s : State) : Result := .next (respond s.lyc s)

/-- WR.LYC (rule R217), with the LCD on or off: "Writing LYC while the LCD is off still recomputes against
the frozen `cmp`". -/
def execWrLyc (v : Byte) (s : State) : Result := .next (recompute { s with lyc := v })

end Sys2Proof.Machine
end

