-- ==== Sys2Proof/Machine/OamStore.lean ====
section
/-! DEFINITION. CPU access to OAM under the region locks (spec/43_oam_store.md rules R401, R402;
spec/20_memory.md rule R121). -/

namespace Sys2Proof.Machine

/-- RD.OAM (rule R401): 0xFF while OAM is read-locked. -/
def execRdOam (off : Fin 160) (s : State) : Result :=
  .next (respond (if s.locks.oamR then 0xFF else oamAt s off.val) s)

/-- WR.OAM (rule R402): dropped while OAM is write-locked. -/
def execWrOam (off : Fin 160) (v : Byte) (s : State) : Result :=
  .next (if s.locks.oamW then s else oamSet off v s)

end Sys2Proof.Machine
end

