-- ==== Sys2Proof/Machine/PaletteRegs.lean ====
section
/-! DEFINITION. The monochrome palette registers with the colourisation capture, and the colour-RAM index
and data registers (spec/46_palette.md sections 2 to 4). -/

namespace Sys2Proof.Machine

/-- The colour-RAM palette of a context, as a shade table: what a capture snapshots (rule R616). -/
def captureTable (s : State) (ctx : PalCtx) : ShadeTable :=
  let color := fun i =>
    match ctx with
    | .bgp => cramColor s s.bgCram 0 i
    | .obp0 => cramColor s s.objCram 0 i
    | .obp1 => cramColor s s.objCram 1 i
  ⟨color 0, color 1, color 2, color 3⟩

/-- A write captures: colour hardware in non-colour mode, nothing captured yet, not the default value
(rule R616). -/
def captures (ctx : PalCtx) (v : Byte) (s : State) : Bool :=
  s.cfg.colorHw && !colorMode s && (colzOf s.colz ctx).isNone && (v != 0x00)

/-- `capture(ctx, v)` (rule R616). -/
def capture (ctx : PalCtx) (v : Byte) (s : State) : State :=
  if captures ctx v s then { s with colz := colzSet s.colz ctx (captureTable s ctx) } else s

/-- RD.BGP (rule R611). -/
def execRdBgp (s : State) : Result := .next (respond s.bgp s)

/-- WR.BGP (rule R610). -/
def execWrBgp (v : Byte) (s : State) : Result := .next { capture .bgp v s with bgp := v }

/-- RD.OBP0 (rule R613). -/
def execRdObp0 (s : State) : Result := .next (respond s.obp0 s)

/-- WR.OBP0 (rule R612). -/
def execWrObp0 (v : Byte) (s : State) : Result := .next { capture .obp0 v s with obp0 := v }

/-- RD.OBP1 (rule R615). -/
def execRdObp1 (s : State) : Result := .next (respond s.obp1 s)

/-- WR.OBP1 (rule R614). -/
def execWrObp1 (v : Byte) (s : State) : Result := .next { capture .obp1 v s with obp1 := v }

/-- RD.BCPS (rule R623): bit 6 reads 1. -/
def execRdBcps (s : State) : Result :=
  .next (respond (if s.cfg.colorHw then s.bcps ||| 0x40#8 else 0xFF) s)

/-- WR.BCPS (rule R622): bit 6 is not stored. -/
def execWrBcps (v : Byte) (s : State) : Result :=
  .next (if s.cfg.colorHw then { s with bcps := paletteIndexStored v } else s)

/-- RD.BCPD (rule R627): 0xFF in mode 3; the index does not move. -/
def execRdBcpd (s : State) : Result :=
  .next (respond (if s.cfg.colorHw && s.mode != .transfer then s.bgCram[paletteIndex s.bcps] else 0xFF) s)

/-- WR.BCPD (rule R626): accepted in every mode; the index moves (rule R621). -/
def execWrBcpd (v : Byte) (s : State) : Result :=
  .next (if s.cfg.colorHw then
    { s with
      bgCram := s.bgCram.set (paletteIndex s.bcps) v
      bcps := paletteIndexNext s.bcps }
  else s)

/-- RD.OCPS (rule R625): bit 6 reads 1. -/
def execRdOcps (s : State) : Result :=
  .next (respond (if s.cfg.colorHw then s.ocps ||| 0x40#8 else 0xFF) s)

/-- WR.OCPS (rule R624): bit 6 is not stored. -/
def execWrOcps (v : Byte) (s : State) : Result :=
  .next (if s.cfg.colorHw then { s with ocps := paletteIndexStored v } else s)

/-- RD.OCPD (rule R629): 0xFF in mode 3; the index does not move. -/
def execRdOcpd (s : State) : Result :=
  .next (respond (if s.cfg.colorHw && s.mode != .transfer then s.objCram[paletteIndex s.ocps] else 0xFF) s)

/-- WR.OCPD (rule R628): accepted in every mode; the index moves (rule R621). -/
def execWrOcpd (v : Byte) (s : State) : Result :=
  .next (if s.cfg.colorHw then
    { s with
      objCram := s.objCram.set (paletteIndex s.ocps) v
      ocps := paletteIndexNext s.ocps }
  else s)

end Sys2Proof.Machine
end

