-- ==== Sys2Proof/Machine/ScrollRegs.lean ====
section
/-! DEFINITION. The scroll and window registers (spec/42_renderer.md section 1). -/

namespace Sys2Proof.Machine

/-- RD.SCY (rule R304). -/
def execRdScy (s : State) : Result := .next (respond s.scy s)

/-- WR.SCY (rule R303). -/
def execWrScy (v : Byte) (s : State) : Result := .next { s with scy := v }

/-- RD.SCX (rule R306). -/
def execRdScx (s : State) : Result := .next (respond s.scx s)

/-- WR.SCX (rule R305). -/
def execWrScx (v : Byte) (s : State) : Result := .next { s with scx := v }

/-- RD.WY (rule R308). -/
def execRdWy (s : State) : Result := .next (respond s.wy s)

/-- WR.WY (rule R307). -/
def execWrWy (v : Byte) (s : State) : Result := .next { s with wy := v }

/-- RD.WX (rule R310). -/
def execRdWx (s : State) : Result := .next (respond s.wx s)

/-- WR.WX (rule R309). -/
def execWrWx (v : Byte) (s : State) : Result := .next { s with wx := v }

end Sys2Proof.Machine
end

