-- ==== Sys2Proof/Machine/VramStore.lean ====
section
/-! DEFINITION. CPU access to VRAM under the region locks (spec/44_tile_store.md rules R450, R451;
spec/20_memory.md rule R121). -/

namespace Sys2Proof.Machine

/-- RD.VRAM (rule R450): 0xFF while VRAM is read-locked. -/
def execRdVram (off : VOff) (s : State) : Result :=
  .next (respond (if s.locks.vramR then 0xFF else vramAt s (bankInUse s) off.toNat) s)

/-- WR.VRAM (rule R451): dropped while VRAM is write-locked. -/
def execWrVram (off : VOff) (v : Byte) (s : State) : Result :=
  .next (if s.locks.vramW then s else vramSet (bankInUse s) off v s)

end Sys2Proof.Machine
end

