-- ==== Sys2Proof/Machine/Dispatch.lean ====
section
/-! DEFINITION. The meaning of every operation, one arm per constructor of Instr. -/

namespace Sys2Proof.Machine

/-- What an operation does (spec/opcode_table.json, one arm a row). -/
def exec (i : Instr) (s : State) : Host.Outcome State Fault Refusal :=
  match i with
  | .rdVram off => Sys2Proof.Machine.execRdVram off s
  | .wrVram off data => Sys2Proof.Machine.execWrVram off data s
  | .rdOam off => Sys2Proof.Machine.execRdOam off s
  | .wrOam off data => Sys2Proof.Machine.execWrOam off data s
  | .rdLcdc => Sys2Proof.Machine.execRdLcdc s
  | .wrLcdc data => Sys2Proof.Machine.execWrLcdc data s
  | .rdStat => Sys2Proof.Machine.execRdStat s
  | .wrStat data => Sys2Proof.Machine.execWrStat data s
  | .wrStatDmg data => Sys2Proof.Machine.execWrStatDmg data s
  | .rdScy => Sys2Proof.Machine.execRdScy s
  | .wrScy data => Sys2Proof.Machine.execWrScy data s
  | .rdScx => Sys2Proof.Machine.execRdScx s
  | .wrScx data => Sys2Proof.Machine.execWrScx data s
  | .rdLy => Sys2Proof.Machine.execRdLy s
  | .wrLy data => Sys2Proof.Machine.execWrLy data s
  | .rdLyc => Sys2Proof.Machine.execRdLyc s
  | .wrLyc data => Sys2Proof.Machine.execWrLyc data s
  | .rdBgp => Sys2Proof.Machine.execRdBgp s
  | .wrBgp data => Sys2Proof.Machine.execWrBgp data s
  | .rdObp0 => Sys2Proof.Machine.execRdObp0 s
  | .wrObp0 data => Sys2Proof.Machine.execWrObp0 data s
  | .rdObp1 => Sys2Proof.Machine.execRdObp1 s
  | .wrObp1 data => Sys2Proof.Machine.execWrObp1 data s
  | .rdWy => Sys2Proof.Machine.execRdWy s
  | .wrWy data => Sys2Proof.Machine.execWrWy data s
  | .rdWx => Sys2Proof.Machine.execRdWx s
  | .wrWx data => Sys2Proof.Machine.execWrWx data s
  | .rdHdma1 => Sys2Proof.Machine.execRdHdma1 s
  | .wrHdma1 data => Sys2Proof.Machine.execWrHdma1 data s
  | .rdHdma2 => Sys2Proof.Machine.execRdHdma2 s
  | .wrHdma2 data => Sys2Proof.Machine.execWrHdma2 data s
  | .rdHdma3 => Sys2Proof.Machine.execRdHdma3 s
  | .wrHdma3 data => Sys2Proof.Machine.execWrHdma3 data s
  | .rdHdma4 => Sys2Proof.Machine.execRdHdma4 s
  | .wrHdma4 data => Sys2Proof.Machine.execWrHdma4 data s
  | .rdHdma5 => Sys2Proof.Machine.execRdHdma5 s
  | .wrHdma5 data => Sys2Proof.Machine.execWrHdma5 data s
  | .rdBcps => Sys2Proof.Machine.execRdBcps s
  | .wrBcps data => Sys2Proof.Machine.execWrBcps data s
  | .rdBcpd => Sys2Proof.Machine.execRdBcpd s
  | .wrBcpd data => Sys2Proof.Machine.execWrBcpd data s
  | .rdOcps => Sys2Proof.Machine.execRdOcps s
  | .wrOcps data => Sys2Proof.Machine.execWrOcps data s
  | .rdOcpd => Sys2Proof.Machine.execRdOcpd s
  | .wrOcpd data => Sys2Proof.Machine.execWrOcpd data s
  | .evGlitchXfer => Sys2Proof.Machine.execEvGlitchXfer s
  | .evGlitchHblank => Sys2Proof.Machine.execEvGlitchHblank s
  | .evLine0Start => Sys2Proof.Machine.execEvLine0Start s
  | .evOamCont => Sys2Proof.Machine.execEvOamCont s
  | .evXferStart => Sys2Proof.Machine.execEvXferStart s
  | .evHblankPre => Sys2Proof.Machine.execEvHblankPre s
  | .evHblankStart => Sys2Proof.Machine.execEvHblankStart s
  | .evHblankEnd => Sys2Proof.Machine.execEvHblankEnd s
  | .evVblankCont => Sys2Proof.Machine.execEvVblankCont s
  | .evVblankLine => Sys2Proof.Machine.execEvVblankLine s
  | .evL153Cont => Sys2Proof.Machine.execEvL153Cont s
  | .evL153End => Sys2Proof.Machine.execEvL153End s
  | .evL153FrameEnd => Sys2Proof.Machine.execEvL153FrameEnd s
  | .reset => Sys2Proof.Machine.execReset s
  | .oamBatch ws => Sys2Proof.Machine.execOamBatch ws s
  | .vramBatch ws => Sys2Proof.Machine.execVramBatch ws s
  | .advance n => Sys2Proof.Machine.execAdvance n s

end Sys2Proof.Machine
end

