-- ==== Sys2Proof/Machine/Inputs.lean ====
section
/-! DEFINITION. What a change outside the block does to the state, and taking the next input
(spec/00_scope.md rules R14 to R16, R22; spec/20_memory.md rules R109, R110). -/

namespace Sys2Proof.Machine

/-- Time passes by `n` units, no further than the pending event's due time: an event cannot be passed
over (rule R231, assumption 6). -/
def elapse (n : Nat) (s : State) : State :=
  match s.pending with
  | some (_, due) => { s with now := max s.now (min (s.now + n) due) }
  | none => { s with now := s.now + n }

/-- `VRAM bank select` from the Bus (rule R14). -/
def inputVramBank (b : Fin 2) (s : State) : State := { s with vramBank := b }

/-- The Scheduler's speed (rule R15). -/
def inputDoubleSpeed (b : Bool) (s : State) : State := { s with doubleSpeed := b }

/-- The Bus is known to answer `v` at `a` (rule R16). -/
def inputBusCell (a : Addr) (v : Byte) (s : State) : State :=
  { s with bus := cellSet s.bus a.toNat v }

/-- What the Bus answers at `a` is unknown again (rule R16). -/
def inputBusForget (a : Addr) (s : State) : State := { s with bus := cellErase s.bus a.toNat }

/-- The state once its first input is taken off the list. -/
def takeInput (s : State) : State := { s with inputs := s.inputs.tail }

/-- The raw operation a table word stands for, put where the next step takes its input. -/
def placeOp (w : OpWord) (s : State) : State := { s with inputs := .op w :: s.inputs }

/-- An EV word runs only as the pending event, due now (rule R231): the event of an EV word becomes
that, any other word leaves the sequencer alone (assumption 17). -/
def placeEvent (w : OpWord) (s : State) : State :=
  if w.cls = 0x2#4 then
    match eventOfArg w.arg with
    | some e => { s with pending := some (e, s.now) }
    | none => s
  else s

end Sys2Proof.Machine
end

