-- ==== Sys2Proof/Machine/Step.lean ====
section
/-! DEFINITION. One step of the machine: it takes the next input of the outside world (spec/20_memory.md
rules R105, R109). With no input waiting nothing happens: "the state machine advances only in response to
Scheduler-invoked callbacks" (assumption 1). -/

namespace Sys2Proof.Machine

/-- An operation word: decoded and run, or refused by the decoder (rule R149). -/
def stepOp (w : OpWord) (s : State) : Host.Outcome State Fault Refusal :=
  match decode s.cfg.colorHw w with
  | .ok i => exec i s
  | .error e => .refused (.undecodable e)

/-- One step. -/
def step (s : State) : Host.Outcome State Fault Refusal :=
  match s.inputs with
  | [] => .next s
  | .op w :: _ => stepOp w (takeInput s)
  | .elapse n :: _ => .next (elapse n (takeInput s))
  | .vramBank b :: _ => .next (inputVramBank b (takeInput s))
  | .doubleSpeed b :: _ => .next (inputDoubleSpeed b (takeInput s))
  | .busCell a v :: _ => .next (inputBusCell a v (takeInput s))
  | .busForget a :: _ => .next (inputBusForget a (takeInput s))

/-- The state with a table word as the next operation (assumptions 1 and 17). -/
def State.withFetchWord (s : State) (nbits w : Nat) : State :=
  placeOp (OpWord.ofTable nbits w) (placeEvent (OpWord.ofTable nbits w) s)

end Sys2Proof.Machine
end

