-- ==== Sys2Proof/Safety.lean ====
section
/-! DEFINITION. What counts as a safe state, in the terms the statements use: the timeline of the phase
controller (spec/41_state_machine.md rules R230, R261, R262), the ranges of spec/10_state.md rule R67,
the HDMA invariants of spec/45_hdma.md rule R523, the stores' canonical form, the settled STAT line. No
step faults: `Fault` is empty (rules R23, R700). -/

namespace Sys2Proof.Machine

/-- Phase, mode, pending source, comparison value and locks are these. -/
def Shows (s : State) (phase : Phase) (mode : Mode) (src : IntSrc) (cmp : Option Byte) (locks : Locks) :
    Prop :=
  s.phase = phase ∧ s.mode = mode ∧ s.src = src ∧ s.cmp = cmp ∧ s.locks = locks

/-- What the tables of rules R230, R256, R261, R262 and R804 show while an event is pending. -/
def TimelineAt (s : State) (e : Event) : Prop :=
  match e with
  | .glitchXfer => Shows s .glitchWait .hblank .none none Locks.open ∧ s.ly = 0
  | .glitchHblank => Shows s .glitchXfer .transfer .none none Locks.all ∧ s.ly = 0
  | .line0Start =>
    (Shows s .glitchHblank .hblank .hblank none Locks.open
      ∨ Shows s .l153 .vblank .vblank (some 0) Locks.open) ∧ s.ly = 0
  | .oamCont =>
    (Shows s .oam .hblank (lineStartSrc s) none ⟨false, true, false, false⟩
      ∨ Shows s .oam .vblank (lineStartSrc s) none ⟨false, true, false, false⟩ ∧ s.ly = 0)
    ∧ s.ly.toNat ≤ 143
  | .xferStart =>
    Shows s .oam .oamSearch (lineStartSrc s) (some s.ly) ⟨true, false, false, false⟩
    ∧ s.ly.toNat ≤ 143
  | .hblankPre => Shows s .xfer .transfer .none (some s.ly) Locks.all ∧ s.ly.toNat ≤ 143
  | .hblankStart => Shows s .xfer .transfer .hblank (some s.ly) Locks.all ∧ s.ly.toNat ≤ 143
  | .hblankEnd => Shows s .hblank .hblank .hblank (some s.ly) Locks.open ∧ s.ly.toNat ≤ 143
  | .vblankCont =>
    (Shows s .vblank .hblank .oam none Locks.open ∧ s.ly = 144)
    ∨ (Shows s .vblank .vblank .vblank none Locks.open ∧ 145 ≤ s.ly.toNat ∧ s.ly.toNat ≤ 152)
  | .vblankLine =>
    Shows s .vblank .vblank .vblank (some s.ly) Locks.open ∧ 144 ≤ s.ly.toNat ∧ s.ly.toNat ≤ 152
  | .l153Cont => Shows s .l153 .vblank .vblank none Locks.open ∧ s.ly = 153
  | .l153End => Shows s .l153 .vblank .vblank (some 153) Locks.open ∧ s.ly = 153
  | .l153FrameEnd => Shows s .l153 .vblank .vblank none Locks.open ∧ s.ly = 0

/-- The sequencer is on its timeline: with no event pending the LCD is off and idle; with one pending
the LCD is on and everything shows what the tables say. -/
def Timeline (s : State) : Prop :=
  match s.pending with
  | none =>
    lcdOn s = false ∧ s.phase = .off ∧ s.mode = .hblank ∧ s.src = .none ∧ s.ly = 0
    ∧ s.locks = Locks.open
  | some (e, _) => lcdOn s = true ∧ TimelineAt s e

/-- The comparison value is a line number (rules R50, R67). -/
def CmpLegal (s : State) : Prop := ∀ c, s.cmp = some c → c.toNat ≤ 153

/-- The scroll penalty is one of its three values (rule R52). -/
def PenaltyLegal (s : State) : Prop := s.penalty = 0 ∨ s.penalty = 4 ∨ s.penalty = 8

/-- The HDMA invariants (rules R62, R67, R523). -/
def HdmaLegal (h : Hdma) : Prop :=
  (h.active = true → h.complete = false ∧ 1 ≤ h.rem) ∧ h.rem ≤ 128
  ∧ (h.paused = true → h.active = true)
  ∧ (h.active = false → h.complete = true)
  ∧ 0x8000 ≤ h.dst.toNat ∧ h.dst.toNat ≤ 0x9FF0 ∧ h.dst.toNat % 16 = 0
  ∧ h.src.toNat % 16 = 0

/-- The pending event is not overdue (rules R22, R231). -/
def NotOverdue (s : State) : Prop := ∀ e due, s.pending = some (e, due) → s.now ≤ due

/-- The state between two operations. -/
def Inv (s : State) : Prop :=
  Timeline s ∧ CmpLegal s ∧ PenaltyLegal s ∧ HdmaLegal s.hdma ∧ NotOverdue s ∧ s.charge = 0

/-- The byte stores are in canonical form (rules R57, R59). -/
def MemoryCanonical (s : State) : Prop :=
  Memory.wf 160 s.oam = true ∧ Memory.wf 0x4000 s.vram = true

/-- The STAT line is what its sources say: every change of `src`, `cmp`, `lyc` or `statEn` was followed
by a recomputation (rule R212). -/
def LineSettled (s : State) : Prop := s.statLine = statSources s

/-- On non-colour hardware the colour registers, the colour RAM and the DMA engine are absent: they are
as reset left them (rules R500, R620). -/
def ColourAbsent (s : State) : Prop :=
  s.cfg.colorHw = false →
    s.bcps = 0 ∧ s.ocps = 0 ∧ s.bgCram = s.cfg.bgCramInit ∧ s.objCram = s.cfg.objCramInit
    ∧ s.hdma = (State.powerOn s.cfg).hdma

/-- Colourisation is captured only on colour hardware running monochrome software (rule R616). -/
def CaptureOnlyCompat (s : State) : Prop :=
  (s.cfg.colorHw && !colorMode s) = false → s.colz = ⟨none, none, none⟩

/-! ## Terms the statements use -/

/-- The output of `lockSet l` (rule R64): a change of the lock outputs, if they change. -/
def lockChange (l : Locks) (s : State) : List (Nat × Output) :=
  if s.locks = l then [] else [(s.now, .locks l)]

/-- The output of a recomputation in `s` (rule R211): a STAT request on a rising edge. -/
def statEdge (s : State) : List (Nat × Output) :=
  if statSources s = true ∧ s.statLine = false then [(s.now, .irqStat)] else []

/-- Operations one after another, stopping at the first that answers no next state. -/
def execAll (is : List Instr) (s : State) : Result :=
  match is with
  | [] => .next s
  | i :: rest =>
    match exec i s with
    | .next t => execAll rest t
    | .fault f => .fault f
    | .refused r => .refused r

/-- The value the last of a batch's entries for offset `off` writes (rule R412). -/
def lastOamWrite (off : Nat) (ws : List OamWrite) : Option Byte :=
  (ws.reverse.find? fun w => w.off == off).map OamWrite.val

/-- The value the last of a batch's entries for a byte of a bank writes (rule R452). -/
def lastVramWrite (bank off : Nat) (ws : List VramWrite) : Option Byte :=
  (ws.reverse.find? fun w => w.bank == bank && w.off == off).map VramWrite.val

/-- The byte the engine reads for byte `i` of a block (rules R16, R513): the block's own VRAM, or what
the Bus answers to the `i`-th read from now. -/
def blockSourceByte (s : State) (i : Nat) : Byte :=
  busRead { s with busCount := s.busCount + i } (s.hdma.src + BitVec.ofNat 16 i)

/-- Sprite `k` puts an opaque pixel in column `x` of line `ly` that the background does not occlude
(rules R332, R333). -/
def drawsPixel (s : State) (ly x : Nat) (bg : Layer) (k : Nat) : Prop :=
  (sprite s k).x.toNat ≤ x + 8 ∧ x < (sprite s k).x.toNat
  ∧ spriteIdx s ly (sprite s k) (x + 8 - (sprite s k).x.toNat) ≠ 0
  ∧ occludes s bg (sprite s k) = false

/-- Two states agree on everything composition reads (rule R340). -/
def SamePicture (s t : State) : Prop :=
  s.lcdc = t.lcdc ∧ s.scy = t.scy ∧ s.scx = t.scx ∧ s.wy = t.wy ∧ s.wx = t.wx
  ∧ s.windowLine = t.windowLine ∧ s.bgp = t.bgp ∧ s.obp0 = t.obp0 ∧ s.obp1 = t.obp1
  ∧ s.colz = t.colz ∧ s.bgCram = t.bgCram ∧ s.objCram = t.objCram ∧ s.oam = t.oam ∧ s.vram = t.vram
  ∧ colorMode s = colorMode t ∧ s.cfg.gray = t.cfg.gray ∧ s.cfg.rgb = t.cfg.rgb

end Sys2Proof.Machine
end

