-- ==== Sys2Proof/Certificates/Slice0/Obligations.lean ====
section
/-! DEFINITION. The statements for the provers, from the numbered rules of spec/. Where a statement is an
equation `exec i s = .next { s with … }` it gives the operation's result, its frame (every field not named
is unchanged) and its completion at once. -/

open Sys2Proof Sys2Proof.Machine

/-! ## Encoding and the step -/

/-- When the next input is a word that decodes to an operation, the step is that operation's meaning, on
the state with the input taken (30_encoding.md R140 to R144; the input list is the model's, assumption
1). It rests in part on assumption 1 (the model's), and on D1 (the spec's own). -/
def Obligations.StepRunsDecodedOperation : Prop :=
  ∀ (s : State) (w : OpWord) (rest : List Input) (i : Instr),
    s.inputs = .op w :: rest → decode s.cfg.colorHw w = .ok i →
    step s = exec i { s with inputs := rest }

/-- Words written out from 30_encoding.md and 95_test_vectors.md decode to their operations. It rests in
part on assumption 3 (the model's), and on D1 (the spec's own). -/
def Obligations.SpecWordsDecode : Prop :=
  decode true ⟨0x911FF40#28, .none⟩ = .ok (.wrLcdc 0x91)
  ∧ decode false ⟨0x401FF41#28, .none⟩ = .ok (.wrStatDmg 0x40)
  ∧ decode true ⟨0xAB0FF44#28, .none⟩ = .ok .rdLy
  ∧ decode true ⟨0x0009FFF#28, .none⟩ = .ok (.rdVram 0x1FFF)
  ∧ decode true ⟨0x000FE9F#28, .none⟩ = .ok (.rdOam 159)
  ∧ decode true ⟨0x1F1FF69#28, .none⟩ = .ok (.wrBcpd 0x1F)
  ∧ decode true ⟨0x821FF55#28, .none⟩ = .ok (.wrHdma5 0x82)
  ∧ decode true ⟨0x0020005#28, .none⟩ = .ok .evXferStart
  ∧ decode true ⟨0x0030003#28, .time 448⟩ = .ok (.advance 448)

/-- Decoding the word of a well-formed operation gives the operation back, with every operand. It rests
in part on assumptions 3 and 12 (the model's), and on D1 (the spec's own). -/
def Obligations.DecodeOfEncode : Prop :=
  ∀ (colorHw : Bool) (i : Instr), i.wellFormed colorHw = true → decode colorHw (encode i) = .ok i

/-- A word that decodes gives a well-formed operation whose own word has the same class, the same
argument and the same operand, and is the same word for a write: only the ignored `data` field of RD, EV
and CTL is lost (R140, R150). It rests in part on assumptions 3 and 12 (the model's), and on D1 (the
spec's own). -/
def Obligations.EncodeOfDecode : Prop :=
  ∀ (colorHw : Bool) (w : OpWord) (i : Instr), decode colorHw w = .ok i →
    i.wellFormed colorHw = true
    ∧ (encode i).cls = w.cls ∧ (encode i).arg = w.arg ∧ (encode i).operand = w.operand
    ∧ (w.cls = 1 → encode i = w)

/-- The reserved spaces of R149: a reserved class, EV number, CTL code or address is refused by the
decoder, and by the step whose next input it is; an EV operation whose event is not the pending one due
now is refused. It rests in part on assumption 1 (the model's), and on D1 (the spec's own). -/
def Obligations.ReservedWordsRefused : Prop :=
  (∀ (colorHw : Bool) (w : OpWord),
    (4 ≤ w.cls.toNat
      ∨ (w.cls = 2 ∧ (w.arg = 0 ∨ 0x0D < w.arg.toNat))
      ∨ (w.cls = 3 ∧ 3 < w.arg.toNat)
      ∨ ((w.cls = 0 ∨ w.cls = 1)
        ∧ ¬ (0x8000 ≤ w.arg.toNat ∧ w.arg.toNat ≤ 0x9FFF)
        ∧ ¬ (0xFE00 ≤ w.arg.toNat ∧ w.arg.toNat ≤ 0xFE9F)
        ∧ ¬ (0xFF40 ≤ w.arg.toNat ∧ w.arg.toNat ≤ 0xFF4B ∧ w.arg.toNat ≠ 0xFF46)
        ∧ ¬ (0xFF51 ≤ w.arg.toNat ∧ w.arg.toNat ≤ 0xFF55)
        ∧ ¬ (0xFF68 ≤ w.arg.toNat ∧ w.arg.toNat ≤ 0xFF6B))) →
    ∃ e, decode colorHw w = .error e
      ∧ ∀ (s : State) (rest : List Input), s.cfg.colorHw = colorHw → s.inputs = .op w :: rest →
          step s = .refused (.undecodable e))
  ∧ ∀ (s : State) (e : Event), s.pending ≠ some (e, s.now) →
      exec e.instr s = .refused (.eventNotDue e)

/-- An EV operation whose event is the pending one and due now runs the event's handler with nothing
pending, and what the handler charged settles after it; any other EV operation is refused (R231). It
rests in part on assumptions 7 and 8 (the model's), and on D1 and D49 (the spec's own). -/
def Obligations.EventFiresExactlyWhenDue : Prop :=
  ∀ (s : State) (e : Event),
    exec e.instr s =
      if s.pending = some (e, s.now) then .next (settle (handle e { s with pending := none }))
      else .refused (.eventNotDue e)

/-! ## LCDC, STAT, LY, LYC -/

/-- RD.LCDC, RD.LY and RD.LYC return the register and change nothing else (R219, R223; for LCDC R222,
where the spec decides, D43, that all eight bits read back). It rests in part on D43 (the spec's own). -/
def Obligations.LcdRegisterReads : Prop :=
  ∀ s : State,
    exec .rdLcdc s = .next { s with result := some s.lcdc }
    ∧ exec .rdLy s = .next { s with result := some s.ly }
    ∧ exec .rdLyc s = .next { s with result := some s.lyc }

/-- RD.STAT returns `0x80 | (statEn << 3) | (lycMatch << 2) | mode`, where `lycMatch` holds exactly when
the comparison value is `some lyc` (R34, R51, R214). It rests in part on D16 and D59 (the spec's own). -/
def Obligations.StatReadValue : Prop :=
  ∀ s : State,
    exec .rdStat s = .next { s with
      result := some (0x80#8 ||| (s.statEn.setWidth 8 <<< 3)
        ||| (if s.cmp = some s.lyc then 0x04#8 else 0x00#8) ||| s.mode.code.setWidth 8) }

/-- A recomputation sets the line to the OR of the four enabled, currently-true sources, raises one STAT
request exactly on a rising edge, and changes nothing else (R210, R211). -/
def Obligations.RecomputeIsEdgeTriggered : Prop :=
  ∀ s : State, ∃ new : Bool,
    (new = true ↔ (s.statEn.getLsbD 3 = true ∧ s.cmp = some s.lyc)
      ∨ (s.statEn.getLsbD 0 = true ∧ s.src = .hblank)
      ∨ (s.statEn.getLsbD 1 = true ∧ s.src = .vblank)
      ∨ (s.statEn.getLsbD 2 = true ∧ s.src = .oam))
    ∧ recompute s = { s with
        statLine := new
        outputs := s.outputs ++
          (if new = true ∧ s.statLine = false then [(s.now, .irqStat)] else []) }

/-- WR.STAT on colour hardware stores bits 6–3 and recomputes, and WR.LYC stores the byte and recomputes,
with the LCD on or off, against whatever comparison value there is (R212, R215, R217): one STAT request
exactly on a rising edge (R211). That a request goes out with the LCD off too is what these rules say,
against the last sentence of R712. It rests in part on assumptions 3 and 20 (the model's), and on D7 (the
spec's own). -/
def Obligations.StatAndLycWrites : Prop :=
  ∀ (s : State) (v : Byte),
    (let t := { s with statEn := v.extractLsb' 3 4 }
     exec (.wrStat v) s = .next { t with
       statLine := statSources t, outputs := s.outputs ++ statEdge t })
    ∧ (let t := { s with lyc := v }
       exec (.wrLyc v) s = .next { t with
         statLine := statSources t, outputs := s.outputs ++ statEdge t })

/-- WR.STAT on non-colour hardware: one STAT request if the line was low and any source is true, whatever
is written; afterwards the enables and the line follow the written value alone (R216, R815). That a
request goes out with the LCD off too, where LY=LYC holds, is what these rules say, against the last
sentence of R712. It rests in part on assumptions 3 and 20 (the model's), and on D7 and D15 (the spec's
own). -/
def Obligations.StatWriteBug : Prop :=
  ∀ (s : State) (v : Byte),
    exec (.wrStatDmg v) s = .next { s with
      statEn := v.extractLsb' 3 4
      statLine := statSources { s with statEn := v.extractLsb' 3 4 }
      outputs := s.outputs ++
        (if s.statLine = false ∧ (s.cmp = some s.lyc ∨ s.src ≠ .none) then [(s.now, .irqStat)]
         else []) }

/-- WR.LY is a no-op (R218). It rests in part on D17 (the spec's own). -/
def Obligations.LyWriteIsNoOp : Prop :=
  ∀ (s : State) (v : Byte), exec (.wrLy v) s = .next s

/-- WR.LCDC stores the byte. If bit 7 stays, nothing else happens; if it rises, the LCD is enabled: the
line counter and the comparison value are reset and the glitch line is scheduled 76 units ahead; if it
falls, the LCD is disabled in every phase: no event is pending, LY and the mode are 0, the locks are
released, and outside vertical blank it is logged (R220, R221, R224). It rests in part on assumption 10
(the model's), and on D14 (the spec's own). -/
def Obligations.LcdcWrite : Prop :=
  ∀ (s : State) (v : Byte),
    (v.getLsbD 7 = s.lcdc.getLsbD 7 → exec (.wrLcdc v) s = .next { s with lcdc := v })
    ∧ (s.lcdc.getLsbD 7 = false → v.getLsbD 7 = true →
      let t := { s with ly := 0, cmp := none, src := .none }
      exec (.wrLcdc v) s = .next { t with
        lcdc := v
        statLine := statSources t
        outputs := s.outputs ++ [(s.now, .setLy 0)] ++ statEdge t
        phase := .glitchWait
        firstFrame := true
        windowLine := 0
        pending := some (.glitchXfer, s.now + 76) })
    ∧ (s.lcdc.getLsbD 7 = true → v.getLsbD 7 = false →
      let t := { s with ly := 0, src := .none }
      exec (.wrLcdc v) s = .next { t with
        lcdc := v
        pending := none
        mode := .hblank
        phase := .off
        locks := Locks.open
        statLine := statSources t
        outputs := s.outputs
          ++ (if s.phase = .vblank ∨ s.phase = .l153 then []
              else [(s.now, .log .lcdDisabledOutsideVblank)])
          ++ [(s.now, .setLy 0)] ++ lockChange Locks.open s ++ statEdge t })

/-! ## Scroll and window registers -/

/-- SCY, SCX, WY and WX are stored as written, without other effect (R303, R305, R307, R309), and read
back (R304, R306, R308, R310). -/
def Obligations.ScrollRegisters : Prop :=
  ∀ (s : State) (v : Byte),
    exec (.wrScy v) s = .next { s with scy := v }
    ∧ exec .rdScy s = .next { s with result := some s.scy }
    ∧ exec (.wrScx v) s = .next { s with scx := v }
    ∧ exec .rdScx s = .next { s with result := some s.scx }
    ∧ exec (.wrWy v) s = .next { s with wy := v }
    ∧ exec .rdWy s = .next { s with result := some s.wy }
    ∧ exec (.wrWx v) s = .next { s with wx := v }
    ∧ exec .rdWx s = .next { s with result := some s.wx }

/-! ## OAM and VRAM -/

/-- RD.OAM and RD.VRAM return the byte, or 0xFF under the read lock, and change nothing else (R401, R450,
R121: the spec marks the value 0xFF as general knowledge). It rests in part on assumption 15 (the
model's), and on D40 and D41 (the spec's own). -/
def Obligations.StoreReads : Prop :=
  ∀ (s : State) (o : Fin 160) (off : VOff),
    exec (.rdOam o) s = .next { s with
      result := some (if s.locks.oamR = true then 0xFF else oamAt s o.val) }
    ∧ exec (.rdVram off) s = .next { s with
      result := some (if s.locks.vramR = true then 0xFF
        else vramAt s (if s.cfg.colorHw = true then s.vramBank else 0) off.toNat) }

/-- WR.OAM is dropped under the write lock; else it stores the byte, and every other byte of OAM and
every other field is unchanged (R402, R121). It rests in part on D41 (the spec's own). -/
def Obligations.OamWriteStores : Prop :=
  ∀ (s : State) (off : Fin 160) (v : Byte), Memory.wf 160 s.oam = true →
    (s.locks.oamW = true → exec (.wrOam off v) s = .next s)
    ∧ (s.locks.oamW = false → ∃ t, exec (.wrOam off v) s = .next t
      ∧ t = { s with oam := t.oam }
      ∧ oamAt t off.val = v
      ∧ ∀ x, x ≠ off.val → oamAt t x = oamAt s x)

/-- WR.VRAM is dropped under the write lock; else it stores the byte in the bank in use, and every other
byte of both banks and every other field is unchanged (R451, R121, R14). It rests in part on assumption
15 (the model's), and on D40 and D41 (the spec's own). -/
def Obligations.VramWriteStores : Prop :=
  ∀ (s : State) (off : VOff) (v : Byte), Memory.wf 0x4000 s.vram = true →
    (s.locks.vramW = true → exec (.wrVram off v) s = .next s)
    ∧ (s.locks.vramW = false → ∃ t, exec (.wrVram off v) s = .next t
      ∧ t = { s with vram := t.vram }
      ∧ vramAt t (if s.cfg.colorHw = true then s.vramBank else 0) off.toNat = v
      ∧ ∀ (b : Fin 2) (x : VOff),
          ¬ (b = (if s.cfg.colorHw = true then s.vramBank else 0) ∧ x = off) →
          vramAt t b x.toNat = vramAt s b x.toNat)

/-- OAM_BATCH applies its entries in list order, a later entry for the same offset winning, whatever the
locks are, and changes nothing else; a batch with an entry out of range is refused whole, by the decoder
and by the operation (R146, R150, R412). It rests in part on D1 and D42 (the spec's own). -/
def Obligations.OamBatchApplies : Prop :=
  ∀ (s : State) (ws : List OamWrite),
    (Memory.wf 160 s.oam = true → (∀ w ∈ ws, w.off < 160) →
      ∃ t, exec (.oamBatch ws) s = .next t
        ∧ t = { s with oam := t.oam }
        ∧ ∀ x, oamAt t x = (lastOamWrite x ws).getD (oamAt s x))
    ∧ ((∃ w ∈ ws, 160 ≤ w.off) →
      exec (.oamBatch ws) s = .refused .batchEntryOutOfRange
      ∧ ∀ colorHw, decode colorHw ⟨0x0030001#28, .oam ws⟩ = .error .batchEntryOutOfRange)

/-- VRAM_BATCH applies its entries in list order to either bank on all hardware, a later entry for the
same location winning, whatever the locks are, and changes nothing else; a batch with an entry out of
range is refused whole, by the decoder and by the operation (R146, R150, R452). It rests in part on D1
and D42 (the spec's own). -/
def Obligations.VramBatchApplies : Prop :=
  ∀ (s : State) (ws : List VramWrite),
    (Memory.wf 0x4000 s.vram = true → (∀ w ∈ ws, w.off < 0x2000 ∧ w.bank < 2) →
      ∃ t, exec (.vramBatch ws) s = .next t
        ∧ t = { s with vram := t.vram }
        ∧ ∀ (b : Fin 2) (x : VOff),
            vramAt t b x.toNat = (lastVramWrite b.val x.toNat ws).getD (vramAt s b x.toNat))
    ∧ ((∃ w ∈ ws, 0x2000 ≤ w.off ∨ 2 ≤ w.bank) →
      exec (.vramBatch ws) s = .refused .batchEntryOutOfRange
      ∧ ∀ colorHw, decode colorHw ⟨0x0030002#28, .vram ws⟩ = .error .batchEntryOutOfRange)

/-- The decoded sprite follows every accepted OAM write: the field that the written byte holds becomes
what was written, the other fields and the other sprites stay (R57, R58, R403, R410). It rests in part on
D27 (the spec's own). -/
def Obligations.SpriteFollowsOamWrite : Prop :=
  ∀ (s : State) (k : Fin 40) (j : Fin 4) (v : Byte) (t : State), Memory.wf 160 s.oam = true →
    s.locks.oamW = false →
    exec (.wrOam ⟨4 * k.val + j.val, by omega⟩ v) s = .next t →
    sprite t k.val =
      (if j = 0 then { sprite s k.val with y := v }
       else if j = 1 then { sprite s k.val with x := v }
       else if j = 2 then { sprite s k.val with tile := v }
       else { sprite s k.val with
         behindBG := v.getLsbD 7, yflip := v.getLsbD 6, xflip := v.getLsbD 5,
         dmgPal := v.getLsbD 4, bank := v.getLsbD 3, cgbPal := v.extractLsb' 0 3 })
    ∧ ∀ k' : Fin 40, k' ≠ k → sprite t k'.val = sprite s k'.val

/-- The decoded tile follows every accepted VRAM write to tile data: a write of row `r`'s low plane
changes bit 0 of the row's colour indices and nothing else of the tile, a write of its high plane bit 1;
column `c` is bit `7 − c` (R453, R460, R461). It rests in part on assumption 15 (the model's), and on D54
(the spec's own). -/
def Obligations.TileFollowsVramWrite : Prop :=
  ∀ (s : State) (n : Fin 384) (r c : Fin 8) (high : Bool) (v : Byte) (t : State),
    Memory.wf 0x4000 s.vram = true → s.locks.vramW = false →
    exec (.wrVram (BitVec.ofNat 13 (16 * n.val + 2 * r.val + high.toNat)) v) s = .next t →
    let b := bankInUse s
    (tilePixel t b n.val r.val c.val).getLsbD high.toNat = v.getLsbD (7 - c.val)
    ∧ (tilePixel t b n.val r.val c.val).getLsbD (1 - high.toNat)
        = (tilePixel s b n.val r.val c.val).getLsbD (1 - high.toNat)
    ∧ ∀ r' : Fin 8, r' ≠ r → tilePixel t b n.val r'.val c.val = tilePixel s b n.val r'.val c.val

/-! ## The events: the glitch line -/

/-- The glitch line: EV_GLITCH_XFER locks everything for mode 3, and EV_GLITCH_HBLANK, without a DMA
block, unlocks with the HBlank source and composes no scanline (R234, R235). It rests in part on
assumption 10 (the model's), and on D12 (the spec's own). -/
def Obligations.GlitchLine : Prop :=
  ∀ s : State, s.charge = 0 →
    (s.pending = some (.glitchXfer, s.now) →
      exec .evGlitchXfer s = .next { s with
        mode := .transfer
        phase := .glitchXfer
        locks := Locks.all
        outputs := s.outputs ++ lockChange Locks.all s
        pending := some (.glitchHblank, s.now + 172) })
    ∧ (s.pending = some (.glitchHblank, s.now) → hdmaDue s = false →
      let t := { s with src := .hblank }
      exec .evGlitchHblank s = .next { t with
        mode := .hblank
        phase := .glitchHblank
        locks := Locks.open
        statLine := statSources t
        outputs := s.outputs ++ lockChange Locks.open s ++ statEdge t
        pending := some (.line0Start, s.now + 196) })

/-! ## The events: visible lines -/

/-- EV_LINE0_START: LY 0, no comparison value, the mode unchanged, the OAM write lock, the OAM source
only on revisions that raise it on line 0, EV_OAM_CONT 4 units ahead (R12, R240, R241). It rests in part
on assumption 10 (the model's), and on D6, D7 and D9 (the spec's own). -/
def Obligations.LineZeroStart : Prop :=
  ∀ s : State, s.pending = some (.line0Start, s.now) → s.charge = 0 →
    let t := { s with
      ly := 0, cmp := none, src := if s.cfg.line0OamSrc = true then .oam else .none }
    exec .evLine0Start s = .next { t with
      phase := .oam
      locks := ⟨false, true, false, false⟩
      statLine := statSources t
      outputs := s.outputs ++ [(s.now, .setLy 0)] ++ lockChange ⟨false, true, false, false⟩ s
        ++ statEdge t
      pending := some (.oamCont, s.now + 4) }

/-- EV_OAM_CONT: the mode reads 2, the read lock engages, the write lock lifts, the comparison value is
LY, EV_XFER_START is 80 units ahead (R242). It rests in part on assumption 10 (the model's), and on D5
(the spec's own). -/
def Obligations.OamSearch : Prop :=
  ∀ s : State, s.pending = some (.oamCont, s.now) → s.charge = 0 →
    let t := { s with cmp := some s.ly }
    exec .evOamCont s = .next { t with
      mode := .oamSearch
      locks := ⟨true, false, false, false⟩
      statLine := statSources t
      outputs := s.outputs ++ lockChange ⟨true, false, false, false⟩ s ++ statEdge t
      pending := some (.xferStart, s.now + 80) }

/-- EV_XFER_START: everything is locked, the pending source is cleared, and the scroll penalty is sampled
from SCX: 0 for SCX&7 = 0, 4 for 1 to 4, 8 for 5 to 7 (R52, R243, R244). It rests in part on assumption
10 (the model's), and on D26 (the spec's own). -/
def Obligations.PixelTransfer : Prop :=
  ∀ s : State, s.pending = some (.xferStart, s.now) → s.charge = 0 →
    let t := { s with src := .none }
    let p := if s.scx.toNat % 8 = 0 then 0 else if s.scx.toNat % 8 ≤ 4 then 4 else 8
    exec .evXferStart s = .next { t with
      mode := .transfer
      phase := .xfer
      locks := Locks.all
      statLine := statSources t
      outputs := s.outputs ++ lockChange Locks.all s ++ statEdge t
      penalty := p
      pending := some (.hblankPre, s.now + (168 + p)) }

/-- EV_HBLANK_PRE: the HBlank source and the recomputation, 4 units ahead of EV_HBLANK_START; the mode
and the locks stay (R245). -/
def Obligations.HblankSourceLeads : Prop :=
  ∀ s : State, s.pending = some (.hblankPre, s.now) → s.charge = 0 →
    let t := { s with src := .hblank }
    exec .evHblankPre s = .next { t with
      statLine := statSources t
      outputs := s.outputs ++ statEdge t
      pending := some (.hblankStart, s.now + 4) }

/-- EV_HBLANK_START without a DMA block: unlock, compose row LY from the state as it is, schedule the
line's end `196 − P + E` ahead (R246, R300, R341). It rests in part on assumptions 10, 18 and 19 (the
model's), and on D26 (the spec's own). -/
def Obligations.HblankComposes : Prop :=
  ∀ s : State, s.pending = some (.hblankStart, s.now) → s.charge = 0 → hdmaDue s = false →
    exec .evHblankStart s = .next { s with
      mode := .hblank
      phase := .hblank
      locks := Locks.open
      outputs := s.outputs ++ lockChange Locks.open s
      fb := if h : s.ly.toNat < 144 then s.fb.set s.ly.toNat (composeRow s s.ly.toNat) h else s.fb
      windowLine := if windowVisible s s.ly.toNat = true then s.windowLine + 1 else s.windowLine
      pending := some (.hblankEnd, s.now + (196 - s.penalty + lineExtra s)) }

/-- EV_HBLANK_END before another visible line: LY moves by one, no comparison value, the OAM source, the
mode unchanged, the OAM write lock, EV_OAM_CONT 4 units ahead (R240, R247). It rests in part on
assumption 10 (the model's), and on D6, D7 and D9 (the spec's own). -/
def Obligations.NextLineStarts : Prop :=
  ∀ s : State, s.pending = some (.hblankEnd, s.now) → s.charge = 0 → s.ly.toNat < 143 →
    let t := { s with ly := s.ly + 1, cmp := none, src := .oam }
    exec .evHblankEnd s = .next { t with
      phase := .oam
      locks := ⟨false, true, false, false⟩
      statLine := statSources t
      outputs := s.outputs ++ [(s.now, .setLy (s.ly + 1))]
        ++ lockChange ⟨false, true, false, false⟩ s ++ statEdge t
      pending := some (.oamCont, s.now + 4) }

/-! ## The events: vertical blank and line 153 -/

/-- EV_HBLANK_END of line 143 enters vertical blank: LY 144, the OAM source for a STAT request, then the
VBlank request on revisions that raise it here, then the frame, blank if it is the first after enable
(R247, R250, R705). It rests in part on D10 and D58 (the spec's own). -/
def Obligations.VblankEntry : Prop :=
  ∀ s : State, s.pending = some (.hblankEnd, s.now) → s.charge = 0 → s.ly = 143 →
    let t := { s with ly := 144, cmp := none, src := .oam }
    let picture : FrameBuffer :=
      if s.firstFrame = true then Vector.replicate 144 (Vector.replicate 160 s.cfg.blank) else s.fb
    exec .evHblankEnd s = .next { t with
      phase := .vblank
      statLine := statSources t
      outputs := s.outputs ++ [(s.now, .setLy 144)] ++ statEdge t
        ++ (if s.cfg.vblankIrqLate = true then [] else [(s.now, .irqVblank)])
        ++ [(s.now, .frame picture)]
      fb := picture
      firstFrame := false
      windowLine := 0
      pending := some (.vblankCont, s.now + 4) }

/-- The lines of vertical blank: EV_VBLANK_CONT gives mode 1, the VBlank source and, on line 144, the
VBlank request on revisions that raise it here; EV_VBLANK_LINE starts the next line, or line 153 (R251,
R252, R255). It rests in part on D10 (the spec's own). -/
def Obligations.VblankLines : Prop :=
  ∀ s : State, s.charge = 0 →
    (s.pending = some (.vblankCont, s.now) →
      let t := { s with cmp := some s.ly, src := .vblank }
      exec .evVblankCont s = .next { t with
        mode := .vblank
        statLine := statSources t
        outputs := s.outputs ++ statEdge t
          ++ (if s.ly = 144 ∧ s.cfg.vblankIrqLate = true then [(s.now, .irqVblank)] else [])
        pending := some (.vblankLine, s.now + 452) })
    ∧ (s.pending = some (.vblankLine, s.now) →
      let t := { s with ly := s.ly + 1, cmp := none }
      exec .evVblankLine s = .next { t with
        phase := if s.ly = 152 then .l153 else s.phase
        statLine := statSources t
        outputs := s.outputs ++ [(s.now, .setLy (s.ly + 1))] ++ statEdge t
        pending := some (if s.ly = 152 then .l153Cont else .vblankCont, s.now + 4) })

/-- Line 153's continue, end and frame-end steps: 153, then LY back to 0 with no comparison value, then
comparison value 0 and line 0 after 444 units (R256, R257, R258, R259). It rests in part on D8 (the
spec's own). -/
def Obligations.LineOneFiftyThree : Prop :=
  ∀ s : State, s.charge = 0 →
    (s.pending = some (.l153Cont, s.now) →
      let t := { s with cmp := some 153 }
      exec .evL153Cont s = .next { t with
        statLine := statSources t
        outputs := s.outputs ++ statEdge t
        pending := some (.l153End, s.now + 4) })
    ∧ (s.pending = some (.l153End, s.now) →
      let t := { s with ly := 0, cmp := none }
      exec .evL153End s = .next { t with
        statLine := statSources t
        outputs := s.outputs ++ [(s.now, .setLy 0)] ++ statEdge t
        pending := some (.l153FrameEnd, s.now + 4) })
    ∧ (s.pending = some (.l153FrameEnd, s.now) →
      let t := { s with cmp := some 0 }
      exec .evL153FrameEnd s = .next { t with
        statLine := statSources t
        outputs := s.outputs ++ statEdge t
        pending := some (.line0Start, s.now + 444) })

/-! ## Time -/

/-- ADVANCE n is the loop of R232. While an event is due by `now + n`, its handler runs at its due time
with nothing pending, what the handler charged passes as an ADVANCE of its own, and ADVANCE goes on with
what is left of `n`. With none due by then, only the time moves. It always answers, at or after `now +
n`, with no event left due. It rests in part on assumptions 7 and 8 (the model's), and on D49 (the spec's
own). -/
def Obligations.AdvanceFiresEveryDueEvent : Prop :=
  ∀ (s : State) (n : Nat), s.charge = 0 →
    (∀ e due, s.pending = some (e, due) → due ≤ s.now + n →
      let u := handle e { s with pending := none, now := due }
      ∃ w, exec (.advance u.charge) { u with charge := 0 } = .next w
        ∧ exec (.advance n) s = exec (.advance (s.now + n - w.now)) w)
    ∧ ((∀ e due, s.pending = some (e, due) → s.now + n < due) →
      exec (.advance n) s = .next { s with now := s.now + n })
    ∧ ∃ t, exec (.advance n) s = .next t
      ∧ s.now + n ≤ t.now
      ∧ (∀ e due, t.pending = some (e, due) → t.now < due)

/-- A visible line, 0 to 143, lasts `452 + LINE_EXTRA` units from its start to the start of the next
line, whatever SCX and the DMA engine do: a wait of that length from a line's start, with EV_OAM_CONT due
4 units on, ends at the next line's start, which is line 144's vertical-blank entry after line 143 (R244,
R260, R520). It rests in part on assumption 7 (the model's), and on D26, D39, D46 and D49 (the spec's
own). -/
def Obligations.VisibleLineLength : Prop :=
  ∀ s : State, s.charge = 0 → s.pending = some (.oamCont, s.now + 4) → s.ly.toNat ≤ 143 →
    ∃ t, exec (.advance (452 + lineExtra s)) s = .next t
      ∧ t.now = s.now + (452 + lineExtra s)
      ∧ t.ly = s.ly + 1 ∧ t.src = .oam ∧ t.cmp = none
      ∧ (s.ly.toNat < 143 → t.phase = .oam ∧ t.pending = some (.oamCont, t.now + 4))
      ∧ (s.ly = 143 → t.phase = .vblank ∧ t.pending = some (.vblankCont, t.now + 4))

/-- A frame lasts `144 × (452 + LINE_EXTRA) + 10 × 456` units from one EV_LINE0_START to the next,
whatever SCX, the palettes, the objects and the DMA engine do: that long a wait from a due EV_LINE0_START
ends with the next line 0 just started (R244, R260, R520). It rests in part on assumption 7 (the
model's), and on D26, D39, D46 and D49 (the spec's own). -/
def Obligations.FrameLength : Prop :=
  ∀ s : State, s.charge = 0 → s.pending = some (.line0Start, s.now) →
    let frame := 144 * (452 + lineExtra s) + 10 * 456
    ∃ t, exec (.advance frame) s = .next t
      ∧ t.now = s.now + frame
      ∧ t.pending = some (.oamCont, s.now + frame + 4)
      ∧ t.ly = 0 ∧ t.phase = .oam ∧ t.cmp = none

/-! ## HDMA and GDMA -/

/-- HDMA1 to HDMA4 set the masked source and destination on colour hardware and nothing elsewhere; after
a source write the source is a multiple of 16 below 0xE000, after a destination write the destination is
a multiple of 16 in the VRAM window (R104, R500 to R504). It rests in part on D36 and D37 (the spec's
own). -/
def Obligations.HdmaAddressWrites : Prop :=
  ∀ (s : State) (v : Byte), HdmaLegal s.hdma →
    let fold := fun a : Nat => if 0xE000 ≤ a then a - 0x2000 else a
    ∃ src1 src2 dst3 dst4 : Addr,
      exec (.wrHdma1 v) s = .next (if s.cfg.colorHw = true
        then { s with hdma := { s.hdma with src := src1 } } else s)
      ∧ exec (.wrHdma2 v) s = .next (if s.cfg.colorHw = true
        then { s with hdma := { s.hdma with src := src2 } } else s)
      ∧ exec (.wrHdma3 v) s = .next (if s.cfg.colorHw = true
        then { s with hdma := { s.hdma with dst := dst3 } } else s)
      ∧ exec (.wrHdma4 v) s = .next (if s.cfg.colorHw = true
        then { s with hdma := { s.hdma with dst := dst4 } } else s)
      ∧ src1.toNat = fold (256 * v.toNat + s.hdma.src.toNat % 256)
      ∧ src2.toNat = fold (256 * (s.hdma.src.toNat / 256) + 16 * (v.toNat / 16))
      ∧ dst3.toNat = 0x8000 + 256 * (v.toNat % 32) + s.hdma.dst.toNat % 256
      ∧ dst4.toNat = 256 * (s.hdma.dst.toNat / 256) + 16 * (v.toNat / 16)
      ∧ src1.toNat % 16 = 0 ∧ src1.toNat < 0xE000 ∧ src2.toNat % 16 = 0 ∧ src2.toNat < 0xE000
      ∧ 0x8000 ≤ dst3.toNat ∧ dst3.toNat ≤ 0x9FF0 ∧ dst3.toNat % 16 = 0
      ∧ 0x8000 ≤ dst4.toNat ∧ dst4.toNat ≤ 0x9FF0 ∧ dst4.toNat % 16 = 0

/-- HDMA1 to HDMA4 read 0xFF; HDMA5 reads 0xFF on non-colour hardware and once complete, else the paused
flag in bit 7 over the remaining count less one (R506 to R510). It rests in part on D37 (the spec's own). -/
def Obligations.HdmaReads : Prop :=
  ∀ s : State, HdmaLegal s.hdma →
    exec .rdHdma1 s = .next { s with result := some 0xFF }
    ∧ exec .rdHdma2 s = .next { s with result := some 0xFF }
    ∧ exec .rdHdma3 s = .next { s with result := some 0xFF }
    ∧ exec .rdHdma4 s = .next { s with result := some 0xFF }
    ∧ ∃ v : Byte, exec .rdHdma5 s = .next { s with result := some v }
      ∧ v.toNat = (if s.cfg.colorHw = false ∨ s.hdma.complete = true then 0xFF
          else (if s.hdma.paused = true then 128 else 0) + (s.hdma.rem - 1))

/-- One block copies its 16 bytes from the source through the Bus into the bank in use, whatever the
locks are, changes no other byte, and moves both addresses on by 16, the destination within the VRAM
window (R466, R511, R513, R514). It rests in part on assumptions 4, 15 and 18 (the model's), and on D39
and D41 (the spec's own). -/
def Obligations.BlockCopiesSixteenBytes : Prop :=
  ∀ s : State, Memory.wf 0x4000 s.vram = true → HdmaLegal s.hdma →
    (copyBlock s = { s with
      vram := (copyBlock s).vram
      busCount := s.busCount + 16
      hdma := { s.hdma with
        src := BitVec.ofNat 16 ((s.hdma.src.toNat + 16) % 65536)
        dst := BitVec.ofNat 16 (if s.hdma.dst.toNat = 0x9FF0 then 0x8000 else s.hdma.dst.toNat + 16) } })
    ∧ (∀ i : Fin 16, vramAt (copyBlock s) (bankInUse s) (s.hdma.dst.toNat - 0x8000 + i.val)
        = blockSourceByte s i.val)
    ∧ ∀ (b : Fin 2) (x : VOff),
        ¬ (b = bankInUse s ∧ s.hdma.dst.toNat - 0x8000 ≤ x.toNat
          ∧ x.toNat < s.hdma.dst.toNat - 0x8000 + 16) →
        vramAt (copyBlock s) b x.toNat = vramAt s b x.toNat

/-- WR.HDMA5: nothing on non-colour hardware; bit 7 set outside HBlank with the LCD on arms a transfer of
the requested length; bit 7 clear with a transfer in progress pauses it, its count kept (R500, R505). It
rests in part on D37, D38 and D52 (the spec's own). -/
def Obligations.HdmaStartAndPause : Prop :=
  ∀ (s : State) (v : Byte), s.charge = 0 →
    (s.cfg.colorHw = false → exec (.wrHdma5 v) s = .next s)
    ∧ (s.cfg.colorHw = true → v.getLsbD 7 = true → lcdOn s = true → s.phase ≠ .hblank →
      s.phase ≠ .glitchHblank →
      exec (.wrHdma5 v) s = .next { s with
        hdma := { s.hdma with
          rem := v.toNat % 128 + 1, active := true, paused := false, complete := false } })
    ∧ (s.cfg.colorHw = true → v.getLsbD 7 = false → s.hdma.active = true → s.hdma.paused = false →
      exec (.wrHdma5 v) s = .next { s with hdma := { s.hdma with paused := true } })

/-- WR.HDMA5 with bit 7 clear and no transfer in progress runs a GDMA of the requested length inside the
write: `n` blocks are copied in order and the transfer is complete. Then `n × 16 × 2` units pass, or `×
4` at double speed, as an ADVANCE of that many: every event that falls due in them fires, and with none
due only the time moves (R117, R505, R512, R520). It rests in part on assumptions 7 and 8 (the model's),
and on D38, D39, D49 and D52 (the spec's own). -/
def Obligations.GdmaRunsWhole : Prop :=
  ∀ (s : State) (v : Byte), s.charge = 0 → s.cfg.colorHw = true → v.getLsbD 7 = false →
    (s.hdma.active = true → s.hdma.paused = true) →
    let n := v.toNat % 128 + 1
    let cost := n * 16 * (if s.doubleSpeed = true then 4 else 2)
    let c := copyBlock^[n] s
    let u := { c with
      hdma := { c.hdma with rem := 0, active := false, paused := false, complete := true }
      outputs := s.outputs ++ [(s.now, .advance cost)] }
    exec (.wrHdma5 v) s = exec (.advance cost) u
    ∧ ((∀ e due, s.pending = some (e, due) → s.now + cost < due) →
      exec (.wrHdma5 v) s = .next { u with now := s.now + cost })

/-- WR.HDMA5 with bit 7 set, with the LCD off or in horizontal blank, copies exactly one block at once;
with length 1 that completes the transfer. Then the block's 32 or 64 units pass, as an ADVANCE of that
many: every event that falls due in them fires, and with none due only the time moves (R117, R505, R513,
R516, R520). It rests in part on assumptions 7 and 8 (the model's), and on D38, D39, D49 and D52 (the
spec's own). -/
def Obligations.HdmaStartCopiesOneBlockAtOnce : Prop :=
  ∀ (s : State) (v : Byte), s.charge = 0 → s.cfg.colorHw = true → v.getLsbD 7 = true →
    (lcdOn s = false ∨ s.phase = .hblank ∨ s.phase = .glitchHblank) →
    let cost := 16 * (if s.doubleSpeed = true then 4 else 2)
    let c := copyBlock s
    let u := { c with
      hdma := { c.hdma with
        rem := v.toNat % 128, paused := false
        active := decide (v.toNat % 128 ≠ 0), complete := decide (v.toNat % 128 = 0) }
      outputs := s.outputs ++ [(s.now, .advance cost)] }
    exec (.wrHdma5 v) s = exec (.advance cost) u
    ∧ ((∀ e due, s.pending = some (e, due) → s.now + cost < due) →
      exec (.wrHdma5 v) s = .next { u with now := s.now + cost })

/-- In colour mode an active, unpaused transfer copies exactly one block at an HBlank entry, a visible
line's or the glitch line's, charged after the event; the start of what follows does not move (R235,
R246, R515, R516, R520). It rests in part on assumptions 7, 8, 10 and 18 (the model's), and on D12, D39
and D49 (the spec's own). -/
def Obligations.HblankEntryCopiesOneBlock : Prop :=
  ∀ s : State, s.charge = 0 → HdmaLegal s.hdma → hdmaDue s = true →
    let cost := 16 * (if s.doubleSpeed = true then 4 else 2)
    let c := copyBlock s
    let h : Hdma := { c.hdma with
      rem := s.hdma.rem - 1
      active := decide (s.hdma.rem ≠ 1), complete := decide (s.hdma.rem = 1) }
    (s.pending = some (.hblankStart, s.now) → PenaltyLegal s →
      exec .evHblankStart s = .next { c with
        mode := .hblank
        phase := .hblank
        locks := Locks.open
        fb := if hly : s.ly.toNat < 144 then s.fb.set s.ly.toNat (composeRow s s.ly.toNat) hly else s.fb
        windowLine := if windowVisible s s.ly.toNat = true then s.windowLine + 1 else s.windowLine
        hdma := h
        outputs := s.outputs ++ lockChange Locks.open s ++ [(s.now, .advance cost)]
        pending := some (.hblankEnd, s.now + (196 - s.penalty + lineExtra s))
        now := s.now + cost })
    ∧ (s.pending = some (.glitchHblank, s.now) →
      let t := { c with src := .hblank }
      exec .evGlitchHblank s = .next { t with
        mode := .hblank
        phase := .glitchHblank
        locks := Locks.open
        statLine := statSources t
        hdma := h
        outputs := s.outputs ++ lockChange Locks.open s ++ statEdge t ++ [(s.now, .advance cost)]
        pending := some (.line0Start, s.now + 196)
        now := s.now + cost })

/-- Pausing a transfer, reading HDMA5 and writing the value back later in the same transfer phase resumes
it with exactly the blocks that remained (R510, R517). It rests in part on D38 and D52 (the spec's own). -/
def Obligations.PauseAndResumeKeepCount : Prop :=
  ∀ (s : State) (v : Byte), s.charge = 0 → s.cfg.colorHw = true → HdmaLegal s.hdma →
    s.hdma.active = true → s.hdma.paused = false → lcdOn s = true → s.phase ≠ .hblank →
    s.phase ≠ .glitchHblank → v.getLsbD 7 = false →
    ∃ (t : State) (r : Byte), execAll [.wrHdma5 v, .rdHdma5] s = .next t
      ∧ t.result = some r ∧ t.hdma = { s.hdma with paused := true }
      ∧ exec (.wrHdma5 r) t = .next { t with hdma := s.hdma }

/-! ## Palettes -/

/-- BGP, OBP0 and OBP1 are stored as written and read back; on colour hardware in non-colour mode the
first write of a value other than 0 captures the context's colour-RAM palette, once (R610 to R617). It
rests in part on D31 (the spec's own). -/
def Obligations.MonochromePalettes : Prop :=
  ∀ (s : State) (v : Byte),
    let now := fun (old : Option ShadeTable) (cram : Cram) (p : BitVec 3) =>
      if s.cfg.colorHw = true ∧ s.cfg.colorCart = false ∧ old = none ∧ v ≠ 0 then
        some (ShadeTable.mk (cramColor s cram p 0) (cramColor s cram p 1) (cramColor s cram p 2)
          (cramColor s cram p 3))
      else old
    exec (.wrBgp v) s = .next { s with
      bgp := v, colz := { s.colz with bgp := now s.colz.bgp s.bgCram 0 } }
    ∧ exec (.wrObp0 v) s = .next { s with
      obp0 := v, colz := { s.colz with obp0 := now s.colz.obp0 s.objCram 0 } }
    ∧ exec (.wrObp1 v) s = .next { s with
      obp1 := v, colz := { s.colz with obp1 := now s.colz.obp1 s.objCram 1 } }
    ∧ exec .rdBgp s = .next { s with result := some s.bgp }
    ∧ exec .rdObp0 s = .next { s with result := some s.obp0 }
    ∧ exec .rdObp1 s = .next { s with result := some s.obp1 }

/-- The colour-palette registers on colour hardware: the index registers keep bits 7 and 5–0 and read bit
6 as 1; a data write stores at the index; a data read returns the byte, or 0xFF in mode 3, and moves
nothing (R42, R43, R622 to R629). It rests in part on D32 and D33 (the spec's own). -/
def Obligations.ColourPaletteRegisters : Prop :=
  ∀ (s : State) (v : Byte), s.cfg.colorHw = true →
    let b := s.bcps.toNat % 64
    let o := s.ocps.toNat % 64
    exec (.wrBcps v) s = .next { s with bcps := v &&& 0xBF#8 }
    ∧ exec .rdBcps s = .next { s with result := some (s.bcps ||| 0x40#8) }
    ∧ exec (.wrOcps v) s = .next { s with ocps := v &&& 0xBF#8 }
    ∧ exec .rdOcps s = .next { s with result := some (s.ocps ||| 0x40#8) }
    ∧ exec (.wrBcpd v) s = .next { s with
      bgCram := s.bgCram.setIfInBounds b v
      bcps := BitVec.ofNat 8 (128 * (s.bcps.toNat / 128) + (b + 1) % 64) }
    ∧ exec .rdBcpd s = .next { s with
      result := some (if s.mode = .transfer then 0xFF else s.bgCram[b]'(Nat.mod_lt _ (by decide))) }
    ∧ exec (.wrOcpd v) s = .next { s with
      objCram := s.objCram.setIfInBounds o v
      ocps := BitVec.ofNat 8 (128 * (s.ocps.toNat / 128) + (o + 1) % 64) }
    ∧ exec .rdOcpd s = .next { s with
      result := some (if s.mode = .transfer then 0xFF else s.objCram[o]'(Nat.mod_lt _ (by decide))) }

/-- On non-colour hardware the colour-palette registers read 0xFF and ignore writes (R620). It rests in
part on D34 (the spec's own). -/
def Obligations.ColourPaletteRegistersAbsent : Prop :=
  ∀ (s : State) (v : Byte), s.cfg.colorHw = false →
    (∀ i ∈ [Instr.wrBcps v, .wrBcpd v, .wrOcps v, .wrOcpd v], exec i s = .next s)
    ∧ ∀ i ∈ [Instr.rdBcps, .rdBcpd, .rdOcps, .rdOcpd], exec i s = .next { s with result := some 0xFF }

/-- Writing N bytes to a colour data register, background or object, from index I stores them at I, I+1,
…, I+N−1 modulo 64, leaves every other byte, moves the index by N modulo 64 whatever bit 7 holds, and
reading them back outside mode 3 returns exactly what was written (R621). It rests in part on D32 and D33
(the spec's own). -/
def Obligations.PaletteAutoIncrement : Prop :=
  ∀ (s : State) (bs : List Byte), s.cfg.colorHw = true → bs.length ≤ 64 → s.mode ≠ .transfer →
    (let start := s.bcps.toNat % 64
     ∃ t, execAll (bs.map .wrBcpd) s = .next t
      ∧ t = { s with bgCram := t.bgCram, bcps := t.bcps }
      ∧ t.bcps.toNat % 64 = (start + bs.length) % 64
      ∧ (∀ j (h : j < bs.length), ∃ u,
          execAll [.wrBcps (BitVec.ofNat 8 ((start + j) % 64)), .rdBcpd] t = .next u
          ∧ u.result = some bs[j] ∧ u.bgCram = t.bgCram
          ∧ u.bcps = BitVec.ofNat 8 ((start + j) % 64))
      ∧ ∀ k (h : k < 64), (∀ j, j < bs.length → k ≠ (start + j) % 64) → t.bgCram[k] = s.bgCram[k])
    ∧ (let start := s.ocps.toNat % 64
     ∃ t, execAll (bs.map .wrOcpd) s = .next t
      ∧ t = { s with objCram := t.objCram, ocps := t.ocps }
      ∧ t.ocps.toNat % 64 = (start + bs.length) % 64
      ∧ (∀ j (h : j < bs.length), ∃ u,
          execAll [.wrOcps (BitVec.ofNat 8 ((start + j) % 64)), .rdOcpd] t = .next u
          ∧ u.result = some bs[j] ∧ u.objCram = t.objCram
          ∧ u.ocps = BitVec.ofNat 8 ((start + j) % 64))
      ∧ ∀ k (h : k < 64), (∀ j, j < bs.length → k ≠ (start + j) % 64) → t.objCram[k] = s.objCram[k])

/-! ## The renderer -/

/-- A row's picture depends on nothing but what R340 lists: two states that agree on it compose the same
row and move the window line alike. It rests in part on assumption 18 (the model's), and on D20 (the
spec's own). -/
def Obligations.CompositionReadsOnlyThePicture : Prop :=
  ∀ (s t : State) (ly : Nat), SamePicture s t →
    composeRow s ly = composeRow t ly
    ∧ (composeLine ly s).windowLine = (composeLine ly t).windowLine

/-- Selection looks only at Y and takes the first ten sprites of the table on the line (R330): what is
selected is on the line, in ascending order, at most ten, and a sprite on the line that is left out has
ten selected before it. It rests in part on D25 (the spec's own). -/
def Obligations.FirstTenSpritesSelected : Prop :=
  ∀ (s : State) (ly : Nat),
    (selectedSprites s ly).length ≤ 10
    ∧ (selectedSprites s ly).Pairwise (· < ·)
    ∧ (∀ k ∈ selectedSprites s ly, k < 40 ∧ (oamAt s (4 * k)).toNat ≤ ly + 16
        ∧ ly + 16 < (oamAt s (4 * k)).toNat + (if s.lcdc.getLsbD 2 = true then 16 else 8))
    ∧ ∀ k, k < 40 → (oamAt s (4 * k)).toNat ≤ ly + 16 →
        ly + 16 < (oamAt s (4 * k)).toNat + (if s.lcdc.getLsbD 2 = true then 16 else 8) →
        k ∉ selectedSprites s ly →
        (selectedSprites s ly).length = 10 ∧ ∀ j ∈ selectedSprites s ly, j < k

/-- Overlap: with objects on, a column ends with the colour of the selected sprite that draws there and
beats every other that does, by table order in colour mode, by X and then table order otherwise; where
none draws, the background or window shows (R333, R334). What a sprite has there is written out: the
colour index from its row, flips, tile and bank (R332), when the background occludes it (R333), its
colour (R335). It rests in part on assumption 18 (the model's), and on D22, D23, D24, D51 and D57 (the
spec's own). -/
def Obligations.SpritePriority : Prop :=
  ∀ (s : State) (ly x : Nat) (bg : Layer),
    (objOn s = true → ∀ k ∈ selectedSprites s ly, drawsPixel s ly x bg k →
      (∀ j ∈ selectedSprites s ly, drawsPixel s ly x bg j → j ≠ k →
        if colorMode s = true then k < j
        else (sprite s k).x.toNat < (sprite s j).x.toNat
          ∨ ((sprite s k).x.toNat = (sprite s j).x.toNat ∧ k < j)) →
      spriteColumn s ly x (selectedSprites s ly) bg =
        spriteColor s (sprite s k) (spriteIdx s ly (sprite s k) (x + 8 - (sprite s k).x.toNat)))
    ∧ ((objOn s = false ∨ ∀ k ∈ selectedSprites s ly, ¬ drawsPixel s ly x bg k) →
      spriteColumn s ly x (selectedSprites s ly) bg = bg.color)
    ∧ ∀ k : Nat,
      let y := (oamAt s (4 * k)).toNat
      let t := oamAt s (4 * k + 2)
      let attr := oamAt s (4 * k + 3)
      let h := if s.lcdc.getLsbD 2 = true then 16 else 8
      let row := if attr.getLsbD 6 = true then h - 1 - (ly + 16 - y) else ly + 16 - y
      let tile := if h = 16 then (t &&& 0xFE#8).toNat + row / 8 else t.toNat
      let bank : Fin 2 := if colorMode s = true ∧ attr.getLsbD 3 = true then 1 else 0
      let lo := vramAt s bank (16 * tile + 2 * (row % 8))
      let hi := vramAt s bank (16 * tile + 2 * (row % 8) + 1)
      (∀ px, px < 8 → y ≤ ly + 16 → ly + 16 < y + h →
        let bit := if attr.getLsbD 5 = true then px else 7 - px
        (spriteIdx s ly (sprite s k) px).toNat = 2 * (hi.getLsbD bit).toNat + (lo.getLsbD bit).toNat)
      ∧ (occludes s bg (sprite s k) = true ↔
        s.lcdc.getLsbD 0 = true ∧ bg.idx ≠ 0 ∧ (bg.prio = true ∨ attr.getLsbD 7 = true))
      ∧ ∀ i : BitVec 2, spriteColor s (sprite s k) i =
        if colorMode s = true then cramColor s s.objCram (attr.extractLsb' 0 3) i
        else if attr.getLsbD 4 = true then
          shade (monoTable s .obp1) (BitVec.ofNat 2 (s.obp1.toNat / 4 ^ i.toNat % 4))
        else shade (monoTable s .obp0) (BitVec.ofNat 2 (s.obp0.toNat / 4 ^ i.toNat % 4))

/-- A column's background or window pixel, in both modes, and the column of the row composed over it. The
window covers the column from WX − 7 on a line where it is on, by its own line counter (R320); elsewhere
it is pixel `(x + SCX, y + SCY)` modulo 256 of the background (R311, R314). The map entry, its attributes
in colour mode (bank, flips, palette, priority), the tile by signed or unsigned number, the planes low
and high, and the colour are written out (R312, R313, R461, R462). With the background off in non-colour
mode the column has shade 0, index 0 and no priority (R317). It rests in part on assumption 18 (the
model's), and on D20, D21, D28, D35 and D54 (the spec's own). -/
def Obligations.BackgroundAndWindowPixel : Prop :=
  ∀ (s : State) (ly : Nat) (x : Fin 160),
    let L := layerColumn s ly x.val
    ((composeRow s ly)[x] = spriteColumn s ly x.val (selectedSprites s ly) L)
    ∧ (objOn s = false → (composeRow s ly)[x] = L.color)
    ∧ (colorMode s = false → bgOn s = false → L = ⟨0, false, (monoTable s .bgp).s0⟩)
    ∧ (colorMode s = true ∨ bgOn s = true →
      let inWindow := s.lcdc.getLsbD 5 = true ∧ s.wy.toNat ≤ ly ∧ s.wx.toNat ≤ 166 ∧ s.wx.toNat ≤ x.val + 7
      let px := if inWindow then x.val + 7 - s.wx.toNat else (x.val + s.scx.toNat) % 256
      let py := if inWindow then s.windowLine.toNat else (ly + s.scy.toNat) % 256
      let high := if inWindow then s.lcdc.getLsbD 6 else s.lcdc.getLsbD 3
      let entry := (if high = true then 0x1C00 else 0x1800) + 32 * (py / 8) + px / 8
      let id := vramAt s 0 entry
      let attr := if colorMode s = true then vramAt s 1 entry else 0
      let r := if attr.getLsbD 6 = true then 7 - py % 8 else py % 8
      let c := if attr.getLsbD 5 = true then 7 - px % 8 else px % 8
      let bank : Fin 2 := if attr.getLsbD 3 = true then 1 else 0
      let tile := if s.lcdc.getLsbD 4 = true then 16 * id.toNat
        else if id.toNat < 128 then 0x1000 + 16 * id.toNat else 16 * id.toNat
      let lo := vramAt s bank (tile + 2 * r)
      let hi := vramAt s bank (tile + 2 * r + 1)
      let i := 2 * (hi.getLsbD (7 - c)).toNat + (lo.getLsbD (7 - c)).toNat
      L.idx.toNat = i ∧ L.prio = attr.getLsbD 7
      ∧ L.color = if colorMode s = true then cramColor s s.bgCram (attr.extractLsb' 0 3) (BitVec.ofNat 2 i)
          else shade (monoTable s .bgp) (BitVec.ofNat 2 (s.bgp.toNat / 4 ^ i % 4)))

/-- Composition writes only its own row and the window line counter, which moves by one exactly on a line
that shows the window (R300, R320, R321, R340). It rests in part on assumption 18 (the model's), and on
D20 (the spec's own). -/
def Obligations.CompositionWritesOneRow : Prop :=
  ∀ (s : State) (ly : Nat), ly < 144 →
    ∃ t, composeLine ly s = t ∧ t = { s with fb := t.fb, windowLine := t.windowLine }
      ∧ (∀ y : Fin 144, t.fb[y] = if y.val = ly then composeRow s ly else s.fb[y])
      ∧ t.windowLine = if s.lcdc.getLsbD 5 = true ∧ (colorMode s = true ∨ s.lcdc.getLsbD 0 = true)
          ∧ s.wy.toNat ≤ ly ∧ s.wx.toNat ≤ 166 then s.windowLine + 1 else s.windowLine

/-! ## Reset -/

/-- RESET sets every field of R30 to its reset value, whatever the state, raises no interrupt and emits
nothing but the release of the locks; time, inputs and the history are not the block's (R800, R801). It
rests in part on assumptions 10, 11 and 13 (the model's), and on D43 (the spec's own). -/
def Obligations.ResetValues : Prop :=
  ∀ s : State, ∃ t, exec .reset s = .next t
    ∧ t.lcdc = 0 ∧ t.statEn = 0 ∧ t.mode = .hblank ∧ t.phase = .off ∧ t.pending = none ∧ t.src = .none
    ∧ t.statLine = false ∧ t.ly = 0 ∧ t.cmp = none ∧ t.lyc = 0
    ∧ t.scy = 0 ∧ t.scx = 0 ∧ t.wy = 0 ∧ t.wx = 0 ∧ t.penalty = 0 ∧ t.windowLine = 0
    ∧ t.firstFrame = false ∧ t.locks = ⟨false, false, false, false⟩
    ∧ t.bgp = 0 ∧ t.obp0 = 0 ∧ t.obp1 = 0 ∧ t.colz = ⟨none, none, none⟩ ∧ t.bcps = 0 ∧ t.ocps = 0
    ∧ t.bgCram = s.cfg.bgCramInit ∧ t.objCram = s.cfg.objCramInit
    ∧ (∀ x, oamAt t x = 0) ∧ (∀ (b : Fin 2) (x : Nat), vramAt t b x = 0)
    ∧ t.hdma = ⟨0x0000, 0x8000, 0, false, false, true⟩
    ∧ (∀ (y : Fin 144) (x : Fin 160), t.fb[y][x] = s.cfg.blank)
    ∧ t.outputs = s.outputs ++ lockChange Locks.open s
    ∧ t.now = s.now ∧ t.inputs = s.inputs ∧ t.cfg = s.cfg

/-- The state right after reset is between operations, on the timeline, with canonical stores and a
settled line. It rests in part on assumptions 2 and 16 (the model's), and on D43 (the spec's own). -/
def Obligations.ResetStateIsSafe : Prop :=
  Inv State.reset ∧ MemoryCanonical State.reset ∧ LineSettled State.reset ∧ ColourAbsent State.reset
  ∧ CaptureOnlyCompat State.reset

/-! ## What every step keeps -/

/-- Every step keeps the invariant: the timeline of the phase controller with its modes, sources,
comparison values, line ranges and locks, the DMA invariants, the penalty, and no event overdue (R67,
R230, R261, R262, R523). It rests in part on assumptions 1, 6 and 7 (the model's), and on D46 (the spec's
own). -/
def Obligations.StepKeepsInvariant : Prop :=
  ∀ s t : State, Inv s → step s = .next t → Inv t

/-- The invariant gives the list of R67. -/
def Obligations.InvariantGivesStateRanges : Prop :=
  ∀ s : State, Inv s →
    s.ly.toNat ≤ 153
    ∧ (∀ c, s.cmp = some c → c.toNat ≤ 153)
    ∧ s.hdma.rem ≤ 128
    ∧ (s.hdma.active = true → s.hdma.complete = false ∧ 1 ≤ s.hdma.rem)
    ∧ (s.hdma.paused = true → s.hdma.active = true)
    ∧ (s.phase = .off ↔ s.lcdc.getLsbD 7 = false)
    ∧ (s.phase = .off → s.pending = none ∧ s.mode = .hblank ∧ s.ly = 0
        ∧ s.locks = ⟨false, false, false, false⟩)
    ∧ (s.pending = none ↔ s.phase = .off)

/-- Every step keeps the byte stores in canonical form. It rests in part on assumption 13 (the model's). -/
def Obligations.StepKeepsMemoryCanonical : Prop :=
  ∀ s t : State, MemoryCanonical s → step s = .next t → MemoryCanonical t

/-- Every step keeps the STAT line equal to what its sources say: no operation changes a source, an
enable or a comparison value without a recomputation (R212). It rests in part on D7 (the spec's own). -/
def Obligations.StepKeepsLineSettled : Prop :=
  ∀ s t : State, LineSettled s → step s = .next t → LineSettled t

/-- The configuration is constant for a run, on non-colour hardware no step touches the colour registers,
the colour RAM or the DMA engine, and colourisation is captured only on colour hardware in non-colour
mode (R8, R9, R500, R616, R620). It rests in part on assumption 2 (the model's), and on D19, D31, D34 and
D37 (the spec's own). -/
def Obligations.VariantIsRespected : Prop :=
  ∀ s t : State, step s = .next t →
    t.cfg = s.cfg ∧ (ColourAbsent s → ColourAbsent t) ∧ (CaptureOnlyCompat s → CaptureOnlyCompat t)

/-- Time never runs back (R22, R232), and the history of outputs only grows, by entries of the time the
step spans: that each output is held with its time is assumption 10, that RESET leaves the time and the
history is assumption 11. It rests in part on assumptions 6, 7, 10 and 11 (the model's). -/
def Obligations.TimeAndHistoryOnlyGrow : Prop :=
  ∀ s t : State, Inv s → step s = .next t →
    s.now ≤ t.now
    ∧ ∃ new, t.outputs = s.outputs ++ new ∧ ∀ r ∈ new, s.now ≤ r.1 ∧ r.1 ≤ t.now

/-- The LCD-off state: no event is pending, LY and the mode read 0, no lock is set, and it is left only
by a WR.LCDC that sets bit 7 (R712). No operation raises an interrupt in it, but for the STAT request of
a write to STAT or LYC that finds the line low and leaves the comparison value equal to LYC (R216, R217,
R815). It rests in part on assumption 20 (the model's), and on D15 and D46 (the spec's own). -/
def Obligations.OffIsQuietAndLeftOnlyByEnable : Prop :=
  ∀ (s t : State) (i : Instr), Inv s → s.phase = .off → exec i s = .next t →
    (s.lcdc.getLsbD 7 = false ∧ s.pending = none ∧ s.ly = 0 ∧ s.mode = .hblank
      ∧ s.locks = ⟨false, false, false, false⟩)
    ∧ (t.phase ≠ .off → ∃ v : Byte, i = .wrLcdc v ∧ v.getLsbD 7 = true)
    ∧ ∃ new, t.outputs = s.outputs ++ new
      ∧ ∀ r ∈ new, r.2 ≠ .irqVblank
        ∧ (r.2 = .irqStat → s.statLine = false ∧ t.cmp = some t.lyc
          ∧ ∃ v : Byte, i = .wrStat v ∨ i = .wrStatDmg v ∨ i = .wrLyc v)
end

