-- ==== Sys2Proof/Laws/Decode.lean ====
section
/-! SUPPORT. The fields of a word built from fields, and what the decoder does with a word of each class:
later proofs about encodings cite these and do not unfold the word's layout. -/

namespace Sys2Proof

/-! ## The fields of a built word (rule R140) -/

/-- The low part of a concatenation. -/
theorem append_low {w v : Nat} (x : BitVec w) (y : BitVec v) : (x ++ y).extractLsb' 0 v = y := by
  ext i hi
  simp [BitVec.getLsbD_append, hi]

/-- A field above the low part of a concatenation is a field of the high part. -/
theorem append_high {w v : Nat} (x : BitVec w) (y : BitVec v) (start len : Nat) :
    (x ++ y).extractLsb' (v + start) len = x.extractLsb' start len := by
  ext i hi
  simp [BitVec.getLsbD_append, Nat.add_assoc]

/-- A whole word is its own field. -/
theorem extract_whole {w : Nat} (x : BitVec w) : x.extractLsb' 0 w = x := by
  ext i hi
  simp

@[simp] theorem mkWord_arg (d : Byte) (c : BitVec 4) (a : Addr) (op : Operand) :
    OpWord.arg ⟨mkWord d c a, op⟩ = a := append_low (d ++ c) a

@[simp] theorem mkWord_cls (d : Byte) (c : BitVec 4) (a : Addr) (op : Operand) :
    OpWord.cls ⟨mkWord d c a, op⟩ = c := (append_high (d ++ c) a 0 4).trans (append_low d c)

@[simp] theorem mkWord_data (d : Byte) (c : BitVec 4) (a : Addr) (op : Operand) :
    OpWord.data ⟨mkWord d c a, op⟩ = d :=
  (append_high (d ++ c) a 4 8).trans ((append_high d c 0 8).trans (extract_whole d))

/-- A vector is its high part and its low part. -/
theorem append_parts {w v : Nat} (x : BitVec (w + v)) : x.extractLsb' v w ++ x.extractLsb' 0 v = x := by
  ext i hi
  simp only [BitVec.getElem_append, BitVec.getElem_extractLsb']
  split
  · simp [BitVec.getElem_eq_testBit_toNat, BitVec.getLsbD]
  · rw [BitVec.getElem_eq_testBit_toNat, BitVec.getLsbD, show v + (i - v) = i by omega]

/-- A field of the high part is a field of the whole. -/
theorem extract_extract {w : Nat} (x : BitVec w) (a n b m : Nat) (h : b + m ≤ n) :
    (x.extractLsb' a n).extractLsb' b m = x.extractLsb' (a + b) m := by
  ext i hi
  simp [show b + i < n by omega, Nat.add_assoc]

/-- A word is its three fields. -/
theorem mkWord_fields (w : OpWord) : mkWord w.data w.cls w.arg = w.word := by
  have h : mkWord w.data w.cls w.arg
      = BitVec.extractLsb' 16 12 w.word ++ BitVec.extractLsb' 0 16 w.word := by
    have h2 := append_parts (w := 8) (v := 4) (BitVec.extractLsb' 16 12 w.word)
    rw [extract_extract w.word 16 12 4 8 (by decide), extract_extract w.word 16 12 0 4 (by decide)] at h2
    exact congrArg (fun y : BitVec 12 => y ++ BitVec.extractLsb' 0 16 w.word) h2
  exact h.trans (append_parts (w := 12) (v := 16) w.word)

/-! ## Decoding a built word, class by class -/

theorem decode_rdWord (colorHw : Bool) (a : Addr) : decode colorHw (rdWord a) = decodeRd a := by
  simp [decode, rdWord, withoutOperand]

theorem decode_wrWord (colorHw : Bool) (a : Addr) (v : Byte) :
    decode colorHw (wrWord a v) = decodeWr colorHw v a := by
  simp [decode, wrWord, withoutOperand]

theorem decode_evWord (colorHw : Bool) (n : Byte) : decode colorHw (evWord n) = decodeEv (n.setWidth 16) := by
  simp [decode, evWord, withoutOperand]

theorem decode_ctlWord (colorHw : Bool) (a : Addr) (op : Operand) :
    decode colorHw (ctlWord a op) = decodeCtl a op := by
  simp [decode, ctlWord]

/-! ## The two address windows (rules R147, R148) -/

theorem isVramArg_off (off : VOff) : isVramArg (0b100#3 ++ off) = true := by
  have : BitVec.extractLsb' 13 3 (0b100#3 ++ off) = 0b100#3 :=
    (append_high 0b100#3 off 0 3).trans (extract_whole _)
  simp only [isVramArg]
  rw [show (BitVec.extractLsb' 13 3 (0b100#3 ++ off : Addr)) = 0b100#3 from this]
  rfl

theorem vramArg_off (off : VOff) : BitVec.extractLsb' 0 13 (0b100#3 ++ off : Addr) = off :=
  append_low 0b100#3 off

/-- The two bytes of an OAM address. -/
theorem oamArg_bytes (off : Fin 160) :
    BitVec.extractLsb' 8 8 (0xFE#8 ++ BitVec.ofNat 8 off.val : Addr) = 0xFE#8
    ∧ (BitVec.extractLsb' 0 8 (0xFE#8 ++ BitVec.ofNat 8 off.val : Addr)).toNat = off.val := by
  constructor
  · exact (append_high 0xFE#8 (BitVec.ofNat 8 off.val) 0 8).trans (extract_whole _)
  · have h : BitVec.extractLsb' 0 8 (0xFE#8 ++ BitVec.ofNat 8 off.val : Addr) = BitVec.ofNat 8 off.val :=
      append_low 0xFE#8 (BitVec.ofNat 8 off.val)
    rw [h, BitVec.toNat_ofNat]
    exact Nat.mod_eq_of_lt (by have := off.isLt; omega)

theorem oamOffset_off (off : Fin 160) : oamOffset (0xFE#8 ++ BitVec.ofNat 8 off.val) = some off := by
  obtain ⟨h1, h2⟩ := oamArg_bytes off
  unfold oamOffset
  rw [if_pos h1, dif_pos (by rw [h2]; exact off.isLt)]
  exact congrArg some (Fin.ext h2)

theorem isVramArg_oam (off : Fin 160) : isVramArg (0xFE#8 ++ BitVec.ofNat 8 off.val) = false := by
  have h : BitVec.extractLsb' 13 3 (0xFE#8 ++ BitVec.ofNat 8 off.val : Addr) = 0b111#3 :=
    (append_high 0xFE#8 (BitVec.ofNat 8 off.val) 5 3).trans (by decide)
  unfold isVramArg
  rw [h]
  rfl

/-- A VRAM address is the window's three bits over its offset. -/
theorem isVramArg_parts {a : Addr} (h : isVramArg a = true) : 0b100#3 ++ a.extractLsb' 0 13 = a := by
  have h2 : BitVec.extractLsb' 13 3 a = 0b100#3 := by simpa [isVramArg] using h
  have h3 := append_parts (w := 3) (v := 13) a
  rw [h2] at h3
  exact h3

/-- An OAM address is the page byte over its offset. -/
theorem oamOffset_parts {a : Addr} {off : Fin 160} (h : oamOffset a = some off) :
    0xFE#8 ++ BitVec.ofNat 8 off.val = a := by
  unfold oamOffset at h
  split at h
  · rename_i h2
    split at h
    · have h3 := append_parts (w := 8) (v := 8) a
      rw [h2] at h3
      have h4 := Option.some.inj h
      subst h4
      rw [BitVec.ofNat_toNat, BitVec.setWidth_eq]
      exact h3
    · cases h
  · cases h

end Sys2Proof
end

