-- ==== Sys2Proof/Laws/Memory.lean ====
section
/-! SUPPORT. The byte stores: read after write, and the canonical form that every operation keeps. -/

namespace Sys2Proof.Machine

/-! ## The canonical form of the cells -/

theorem cellsRising_weaken {lo lo' : Nat} (h : lo' ≤ lo) {m : List Host.Cell}
    (hm : cellsRising lo m = true) : cellsRising lo' m = true := by
  cases m with
  | nil => rfl
  | cons c rest =>
    obtain ⟨b, v⟩ := c
    simp only [cellsRising, Bool.and_eq_true, decide_eq_true_eq] at hm ⊢
    exact ⟨by omega, hm.2⟩

theorem cellAt_below {m : List Host.Cell} {lo a : Nat} (hm : cellsRising lo m = true) (ha : a < lo) :
    cellAt m a = none := by
  induction m generalizing lo with
  | nil => rfl
  | cons c rest ih =>
    obtain ⟨b, v⟩ := c
    simp only [cellsRising, Bool.and_eq_true, decide_eq_true_eq] at hm
    have : a ≠ b := by omega
    simp only [cellAt, this, if_false]
    exact ih hm.2 (by omega)

/-! ## Reading a cell after a write -/

theorem cellAt_set_self (m : List Host.Cell) (a : Nat) (v : Byte) : cellAt (cellSet m a v) a = some v := by
  induction m with
  | nil => simp [cellSet, cellAt]
  | cons c rest ih =>
    obtain ⟨b, w⟩ := c
    unfold cellSet
    split
    · simp [cellAt]
    · split
      · simp [cellAt]
      · rename_i h
        simp [cellAt, h, ih]

theorem cellAt_set_other (m : List Host.Cell) {a x : Nat} (v : Byte) (h : x ≠ a) :
    cellAt (cellSet m a v) x = cellAt m x := by
  induction m with
  | nil => simp [cellSet, cellAt, h]
  | cons c rest ih =>
    obtain ⟨b, w⟩ := c
    unfold cellSet
    split
    · simp [cellAt, h]
    · split
      · rename_i hab; subst hab; simp [cellAt, h]
      · simp only [cellAt, ih]

theorem cellAt_erase_self {m : List Host.Cell} {lo : Nat} (hm : cellsRising lo m = true) (a : Nat) :
    cellAt (cellErase m a) a = none := by
  induction m generalizing lo with
  | nil => rfl
  | cons c rest ih =>
    obtain ⟨b, w⟩ := c
    simp only [cellsRising, Bool.and_eq_true, decide_eq_true_eq] at hm
    unfold cellErase
    split
    · exact cellAt_below hm.2 (by omega)
    · rename_i h; simp only [cellAt, h, if_false]; exact ih hm.2

theorem cellAt_erase_other (m : List Host.Cell) {a x : Nat} (h : x ≠ a) :
    cellAt (cellErase m a) x = cellAt m x := by
  induction m with
  | nil => rfl
  | cons c rest ih =>
    obtain ⟨b, w⟩ := c
    unfold cellErase
    split
    · rename_i hab; subst hab; simp [cellAt, h]
    · simp only [cellAt, ih]

/-! ## Keeping the canonical form -/

theorem cellsRising_set {m : List Host.Cell} {lo a : Nat} (v : Byte) (hm : cellsRising lo m = true)
    (ha : lo ≤ a) : cellsRising lo (cellSet m a v) = true := by
  induction m generalizing lo with
  | nil => simp [cellSet, cellsRising, ha]
  | cons c rest ih =>
    obtain ⟨b, w⟩ := c
    simp only [cellsRising, Bool.and_eq_true, decide_eq_true_eq] at hm
    unfold cellSet
    split
    · simp only [cellsRising, Bool.and_eq_true, decide_eq_true_eq]
      exact ⟨ha, by omega, hm.2⟩
    · split
      · rename_i hab; subst hab
        simp only [cellsRising, Bool.and_eq_true, decide_eq_true_eq]
        exact hm
      · simp only [cellsRising, Bool.and_eq_true, decide_eq_true_eq]
        exact ⟨hm.1, ih hm.2 (by omega)⟩

theorem cellsRising_erase {m : List Host.Cell} {lo : Nat} (a : Nat) (hm : cellsRising lo m = true) :
    cellsRising lo (cellErase m a) = true := by
  induction m generalizing lo with
  | nil => rfl
  | cons c rest ih =>
    obtain ⟨b, w⟩ := c
    simp only [cellsRising, Bool.and_eq_true, decide_eq_true_eq] at hm
    unfold cellErase
    split
    · exact cellsRising_weaken (by omega) hm.2
    · simp only [cellsRising, Bool.and_eq_true, decide_eq_true_eq]
      exact ⟨hm.1, ih hm.2⟩

theorem mem_cellSet {m : List Host.Cell} {a : Nat} {v : Byte} {c : Host.Cell}
    (h : c ∈ cellSet m a v) : c = (a, v) ∨ c ∈ m := by
  induction m with
  | nil => simp_all [cellSet]
  | cons d rest ih =>
    obtain ⟨b, w⟩ := d
    unfold cellSet at h
    split at h
    · simp_all
    · split at h
      · simp only [List.mem_cons] at h ⊢; tauto
      · simp only [List.mem_cons] at h ⊢
        rcases h with h | h
        · tauto
        · rcases ih h with h | h <;> tauto

theorem mem_cellErase {m : List Host.Cell} {a : Nat} {c : Host.Cell} (h : c ∈ cellErase m a) : c ∈ m := by
  induction m with
  | nil => simp_all [cellErase]
  | cons d rest ih =>
    obtain ⟨b, w⟩ := d
    unfold cellErase at h
    split at h
    · exact List.mem_cons_of_mem _ h
    · simp only [List.mem_cons] at h ⊢
      exact h.imp id ih

/-! ## The store's laws -/

theorem Memory.wf_iff {size : Nat} {m : Memory} :
    Memory.wf size m = true ↔
      cellsRising 0 m = true ∧ ∀ c ∈ m, c.1 < size ∧ c.2 ≠ Memory.background := by
  simp [Memory.wf]

/-- An empty store is canonical. -/
@[simp] theorem Memory.wf_nil (size : Nat) : Memory.wf size [] = true := rfl

/-- A write below `size` keeps the canonical form. -/
theorem Memory.wf_write {size : Nat} {m : Memory} {a : Nat} (v : Byte) (hm : Memory.wf size m = true)
    (ha : a < size) : Memory.wf size (m.write a v) = true := by
  rw [Memory.wf_iff] at hm ⊢
  unfold Memory.write
  split
  · exact ⟨cellsRising_erase a hm.1, fun c hc => hm.2 c (mem_cellErase hc)⟩
  · rename_i hv
    refine ⟨cellsRising_set v hm.1 (Nat.zero_le a), fun c hc => ?_⟩
    rcases mem_cellSet hc with h | h
    · subst h; exact ⟨ha, hv⟩
    · exact hm.2 c h

/-- A read after a write to the same address gives the value written. -/
theorem Memory.read_write_self {size : Nat} {m : Memory} (hm : Memory.wf size m = true) (a : Nat) (v : Byte) :
    (m.write a v).read a = v := by
  unfold Memory.read Memory.write
  split
  · rename_i hv; rw [cellAt_erase_self (Memory.wf_iff.mp hm).1 a, hv]; rfl
  · rw [cellAt_set_self]; rfl

/-- A write leaves every other address alone. -/
theorem Memory.read_write_other (m : Memory) {a x : Nat} (v : Byte) (h : x ≠ a) :
    (m.write a v).read x = m.read x := by
  unfold Memory.read Memory.write
  split
  · rw [cellAt_erase_other m h]
  · rw [cellAt_set_other m v h]

/-- Two banks' bytes stand at different keys. -/
theorem vramKey_inj {b b' : Fin 2} {x x' : Nat} (hx : x < 0x2000) (hx' : x' < 0x2000)
    (h : vramKey b x = vramKey b' x') : b = b' ∧ x = x' := by
  unfold vramKey at h
  constructor
  · apply Fin.ext; omega
  · omega

theorem vramKey_lt (b : Fin 2) (off : VOff) : vramKey b off.toNat < 0x4000 := by
  have := off.isLt; have := b.isLt; unfold vramKey; omega

end Sys2Proof.Machine
end

