-- ==== Sys2Proof/Laws/State.lean ====
section
/-! SUPPORT. What each named operation over the state leaves in each field: one lemma a field, so that no
later proof unfolds a record update. -/

namespace Sys2Proof.Machine

variable (s : State)

/-! ## Operations that are one record update -/

@[simp] theorem raiseStat_def : raiseStat s = emit .irqStat s := rfl
@[simp] theorem raiseVblank_def : raiseVblank s = emit .irqVblank s := rfl
@[simp] theorem setLY_def (v : Byte) : setLY v s = emit (.setLy v) s := rfl
@[simp] theorem emitFrame_def : emitFrame s = emit (.frame s.fb) s := rfl
@[simp] theorem log_def (m : LogMsg) : log m s = emit (.log m) s := rfl
@[simp] theorem deschedule_def : deschedule s = { s with pending := none } := rfl
@[simp] theorem advance_def (n : Nat) :
    advance n s = emit (.advance n) { s with charge := s.charge + n } := rfl
@[simp] theorem setSrc_def (x : IntSrc) : setSrc x s = recompute { s with src := x } := rfl
@[simp] theorem setCmp_def (c : Option Byte) : setCmp c s = recompute { s with cmp := c } := rfl
@[simp] theorem storeLY_def (v : Byte) : storeLY v s = emit (.setLy v) { s with ly := v } := rfl

/-! ## emit -/

@[simp] theorem emit_lcdc (o : Output) : (emit o s).lcdc = s.lcdc := rfl
@[simp] theorem emit_statEn (o : Output) : (emit o s).statEn = s.statEn := rfl
@[simp] theorem emit_mode (o : Output) : (emit o s).mode = s.mode := rfl
@[simp] theorem emit_phase (o : Output) : (emit o s).phase = s.phase := rfl
@[simp] theorem emit_pending (o : Output) : (emit o s).pending = s.pending := rfl
@[simp] theorem emit_src (o : Output) : (emit o s).src = s.src := rfl
@[simp] theorem emit_statLine (o : Output) : (emit o s).statLine = s.statLine := rfl
@[simp] theorem emit_ly (o : Output) : (emit o s).ly = s.ly := rfl
@[simp] theorem emit_cmp (o : Output) : (emit o s).cmp = s.cmp := rfl
@[simp] theorem emit_lyc (o : Output) : (emit o s).lyc = s.lyc := rfl
@[simp] theorem emit_scy (o : Output) : (emit o s).scy = s.scy := rfl
@[simp] theorem emit_scx (o : Output) : (emit o s).scx = s.scx := rfl
@[simp] theorem emit_wy (o : Output) : (emit o s).wy = s.wy := rfl
@[simp] theorem emit_wx (o : Output) : (emit o s).wx = s.wx := rfl
@[simp] theorem emit_penalty (o : Output) : (emit o s).penalty = s.penalty := rfl
@[simp] theorem emit_windowLine (o : Output) : (emit o s).windowLine = s.windowLine := rfl
@[simp] theorem emit_firstFrame (o : Output) : (emit o s).firstFrame = s.firstFrame := rfl
@[simp] theorem emit_locks (o : Output) : (emit o s).locks = s.locks := rfl
@[simp] theorem emit_bgp (o : Output) : (emit o s).bgp = s.bgp := rfl
@[simp] theorem emit_obp0 (o : Output) : (emit o s).obp0 = s.obp0 := rfl
@[simp] theorem emit_obp1 (o : Output) : (emit o s).obp1 = s.obp1 := rfl
@[simp] theorem emit_colz (o : Output) : (emit o s).colz = s.colz := rfl
@[simp] theorem emit_bcps (o : Output) : (emit o s).bcps = s.bcps := rfl
@[simp] theorem emit_ocps (o : Output) : (emit o s).ocps = s.ocps := rfl
@[simp] theorem emit_bgCram (o : Output) : (emit o s).bgCram = s.bgCram := rfl
@[simp] theorem emit_objCram (o : Output) : (emit o s).objCram = s.objCram := rfl
@[simp] theorem emit_oam (o : Output) : (emit o s).oam = s.oam := rfl
@[simp] theorem emit_vram (o : Output) : (emit o s).vram = s.vram := rfl
@[simp] theorem emit_hdma (o : Output) : (emit o s).hdma = s.hdma := rfl
@[simp] theorem emit_fb (o : Output) : (emit o s).fb = s.fb := rfl
@[simp] theorem emit_cfg (o : Output) : (emit o s).cfg = s.cfg := rfl
@[simp] theorem emit_now (o : Output) : (emit o s).now = s.now := rfl
@[simp] theorem emit_vramBank (o : Output) : (emit o s).vramBank = s.vramBank := rfl
@[simp] theorem emit_doubleSpeed (o : Output) : (emit o s).doubleSpeed = s.doubleSpeed := rfl
@[simp] theorem emit_bus (o : Output) : (emit o s).bus = s.bus := rfl
@[simp] theorem emit_inputs (o : Output) : (emit o s).inputs = s.inputs := rfl
@[simp] theorem emit_outputs (o : Output) :
    (emit o s).outputs = s.outputs ++ [(s.now, o)] := rfl
@[simp] theorem emit_result (o : Output) : (emit o s).result = s.result := rfl
@[simp] theorem emit_busCount (o : Output) : (emit o s).busCount = s.busCount := rfl
@[simp] theorem emit_charge (o : Output) : (emit o s).charge = s.charge := rfl

/-! ## lockSet -/

@[simp] theorem lockSet_lcdc (l : Locks) : (lockSet l s).lcdc = s.lcdc := by unfold lockSet; split <;> rfl
@[simp] theorem lockSet_statEn (l : Locks) : (lockSet l s).statEn = s.statEn := by unfold lockSet; split <;> rfl
@[simp] theorem lockSet_mode (l : Locks) : (lockSet l s).mode = s.mode := by unfold lockSet; split <;> rfl
@[simp] theorem lockSet_phase (l : Locks) : (lockSet l s).phase = s.phase := by unfold lockSet; split <;> rfl
@[simp] theorem lockSet_pending (l : Locks) : (lockSet l s).pending = s.pending := by unfold lockSet; split <;> rfl
@[simp] theorem lockSet_src (l : Locks) : (lockSet l s).src = s.src := by unfold lockSet; split <;> rfl
@[simp] theorem lockSet_statLine (l : Locks) : (lockSet l s).statLine = s.statLine := by unfold lockSet; split <;> rfl
@[simp] theorem lockSet_ly (l : Locks) : (lockSet l s).ly = s.ly := by unfold lockSet; split <;> rfl
@[simp] theorem lockSet_cmp (l : Locks) : (lockSet l s).cmp = s.cmp := by unfold lockSet; split <;> rfl
@[simp] theorem lockSet_lyc (l : Locks) : (lockSet l s).lyc = s.lyc := by unfold lockSet; split <;> rfl
@[simp] theorem lockSet_scy (l : Locks) : (lockSet l s).scy = s.scy := by unfold lockSet; split <;> rfl
@[simp] theorem lockSet_scx (l : Locks) : (lockSet l s).scx = s.scx := by unfold lockSet; split <;> rfl
@[simp] theorem lockSet_wy (l : Locks) : (lockSet l s).wy = s.wy := by unfold lockSet; split <;> rfl
@[simp] theorem lockSet_wx (l : Locks) : (lockSet l s).wx = s.wx := by unfold lockSet; split <;> rfl
@[simp] theorem lockSet_penalty (l : Locks) : (lockSet l s).penalty = s.penalty := by unfold lockSet; split <;> rfl
@[simp] theorem lockSet_windowLine (l : Locks) : (lockSet l s).windowLine = s.windowLine := by unfold lockSet; split <;> rfl
@[simp] theorem lockSet_firstFrame (l : Locks) : (lockSet l s).firstFrame = s.firstFrame := by unfold lockSet; split <;> rfl
@[simp] theorem lockSet_locks (l : Locks) :
    (lockSet l s).locks = l := by unfold lockSet; split <;> simp_all
@[simp] theorem lockSet_bgp (l : Locks) : (lockSet l s).bgp = s.bgp := by unfold lockSet; split <;> rfl
@[simp] theorem lockSet_obp0 (l : Locks) : (lockSet l s).obp0 = s.obp0 := by unfold lockSet; split <;> rfl
@[simp] theorem lockSet_obp1 (l : Locks) : (lockSet l s).obp1 = s.obp1 := by unfold lockSet; split <;> rfl
@[simp] theorem lockSet_colz (l : Locks) : (lockSet l s).colz = s.colz := by unfold lockSet; split <;> rfl
@[simp] theorem lockSet_bcps (l : Locks) : (lockSet l s).bcps = s.bcps := by unfold lockSet; split <;> rfl
@[simp] theorem lockSet_ocps (l : Locks) : (lockSet l s).ocps = s.ocps := by unfold lockSet; split <;> rfl
@[simp] theorem lockSet_bgCram (l : Locks) : (lockSet l s).bgCram = s.bgCram := by unfold lockSet; split <;> rfl
@[simp] theorem lockSet_objCram (l : Locks) : (lockSet l s).objCram = s.objCram := by unfold lockSet; split <;> rfl
@[simp] theorem lockSet_oam (l : Locks) : (lockSet l s).oam = s.oam := by unfold lockSet; split <;> rfl
@[simp] theorem lockSet_vram (l : Locks) : (lockSet l s).vram = s.vram := by unfold lockSet; split <;> rfl
@[simp] theorem lockSet_hdma (l : Locks) : (lockSet l s).hdma = s.hdma := by unfold lockSet; split <;> rfl
@[simp] theorem lockSet_fb (l : Locks) : (lockSet l s).fb = s.fb := by unfold lockSet; split <;> rfl
@[simp] theorem lockSet_cfg (l : Locks) : (lockSet l s).cfg = s.cfg := by unfold lockSet; split <;> rfl
@[simp] theorem lockSet_now (l : Locks) : (lockSet l s).now = s.now := by unfold lockSet; split <;> rfl
@[simp] theorem lockSet_vramBank (l : Locks) : (lockSet l s).vramBank = s.vramBank := by unfold lockSet; split <;> rfl
@[simp] theorem lockSet_doubleSpeed (l : Locks) : (lockSet l s).doubleSpeed = s.doubleSpeed := by unfold lockSet; split <;> rfl
@[simp] theorem lockSet_bus (l : Locks) : (lockSet l s).bus = s.bus := by unfold lockSet; split <;> rfl
@[simp] theorem lockSet_inputs (l : Locks) : (lockSet l s).inputs = s.inputs := by unfold lockSet; split <;> rfl
@[simp] theorem lockSet_outputs (l : Locks) :
    (lockSet l s).outputs = s.outputs ++ (if s.locks = l then [] else [(s.now, .locks l)]) := by unfold lockSet; split <;> simp [emit]
@[simp] theorem lockSet_result (l : Locks) : (lockSet l s).result = s.result := by unfold lockSet; split <;> rfl
@[simp] theorem lockSet_busCount (l : Locks) : (lockSet l s).busCount = s.busCount := by unfold lockSet; split <;> rfl
@[simp] theorem lockSet_charge (l : Locks) : (lockSet l s).charge = s.charge := by unfold lockSet; split <;> rfl

/-! ## recompute -/

@[simp] theorem recompute_lcdc : (recompute s).lcdc = s.lcdc := by unfold recompute; split <;> rfl
@[simp] theorem recompute_statEn : (recompute s).statEn = s.statEn := by unfold recompute; split <;> rfl
@[simp] theorem recompute_mode : (recompute s).mode = s.mode := by unfold recompute; split <;> rfl
@[simp] theorem recompute_phase : (recompute s).phase = s.phase := by unfold recompute; split <;> rfl
@[simp] theorem recompute_pending : (recompute s).pending = s.pending := by unfold recompute; split <;> rfl
@[simp] theorem recompute_src : (recompute s).src = s.src := by unfold recompute; split <;> rfl
@[simp] theorem recompute_statLine :
    (recompute s).statLine = statSources s := by unfold recompute; split <;> simp_all
@[simp] theorem recompute_ly : (recompute s).ly = s.ly := by unfold recompute; split <;> rfl
@[simp] theorem recompute_cmp : (recompute s).cmp = s.cmp := by unfold recompute; split <;> rfl
@[simp] theorem recompute_lyc : (recompute s).lyc = s.lyc := by unfold recompute; split <;> rfl
@[simp] theorem recompute_scy : (recompute s).scy = s.scy := by unfold recompute; split <;> rfl
@[simp] theorem recompute_scx : (recompute s).scx = s.scx := by unfold recompute; split <;> rfl
@[simp] theorem recompute_wy : (recompute s).wy = s.wy := by unfold recompute; split <;> rfl
@[simp] theorem recompute_wx : (recompute s).wx = s.wx := by unfold recompute; split <;> rfl
@[simp] theorem recompute_penalty : (recompute s).penalty = s.penalty := by unfold recompute; split <;> rfl
@[simp] theorem recompute_windowLine : (recompute s).windowLine = s.windowLine := by unfold recompute; split <;> rfl
@[simp] theorem recompute_firstFrame : (recompute s).firstFrame = s.firstFrame := by unfold recompute; split <;> rfl
@[simp] theorem recompute_locks : (recompute s).locks = s.locks := by unfold recompute; split <;> rfl
@[simp] theorem recompute_bgp : (recompute s).bgp = s.bgp := by unfold recompute; split <;> rfl
@[simp] theorem recompute_obp0 : (recompute s).obp0 = s.obp0 := by unfold recompute; split <;> rfl
@[simp] theorem recompute_obp1 : (recompute s).obp1 = s.obp1 := by unfold recompute; split <;> rfl
@[simp] theorem recompute_colz : (recompute s).colz = s.colz := by unfold recompute; split <;> rfl
@[simp] theorem recompute_bcps : (recompute s).bcps = s.bcps := by unfold recompute; split <;> rfl
@[simp] theorem recompute_ocps : (recompute s).ocps = s.ocps := by unfold recompute; split <;> rfl
@[simp] theorem recompute_bgCram : (recompute s).bgCram = s.bgCram := by unfold recompute; split <;> rfl
@[simp] theorem recompute_objCram : (recompute s).objCram = s.objCram := by unfold recompute; split <;> rfl
@[simp] theorem recompute_oam : (recompute s).oam = s.oam := by unfold recompute; split <;> rfl
@[simp] theorem recompute_vram : (recompute s).vram = s.vram := by unfold recompute; split <;> rfl
@[simp] theorem recompute_hdma : (recompute s).hdma = s.hdma := by unfold recompute; split <;> rfl
@[simp] theorem recompute_fb : (recompute s).fb = s.fb := by unfold recompute; split <;> rfl
@[simp] theorem recompute_cfg : (recompute s).cfg = s.cfg := by unfold recompute; split <;> rfl
@[simp] theorem recompute_now : (recompute s).now = s.now := by unfold recompute; split <;> rfl
@[simp] theorem recompute_vramBank : (recompute s).vramBank = s.vramBank := by unfold recompute; split <;> rfl
@[simp] theorem recompute_doubleSpeed : (recompute s).doubleSpeed = s.doubleSpeed := by unfold recompute; split <;> rfl
@[simp] theorem recompute_bus : (recompute s).bus = s.bus := by unfold recompute; split <;> rfl
@[simp] theorem recompute_inputs : (recompute s).inputs = s.inputs := by unfold recompute; split <;> rfl
@[simp] theorem recompute_outputs :
    (recompute s).outputs = s.outputs ++ (if (statSources s && !s.statLine) = true then [(s.now, .irqStat)] else []) := by unfold recompute; split <;> simp [emit]
@[simp] theorem recompute_result : (recompute s).result = s.result := by unfold recompute; split <;> rfl
@[simp] theorem recompute_busCount : (recompute s).busCount = s.busCount := by unfold recompute; split <;> rfl
@[simp] theorem recompute_charge : (recompute s).charge = s.charge := by unfold recompute; split <;> rfl

/-! ## schedule -/

@[simp] theorem schedule_lcdc (e : Event) (d : Nat) : (schedule e d s).lcdc = s.lcdc := rfl
@[simp] theorem schedule_statEn (e : Event) (d : Nat) : (schedule e d s).statEn = s.statEn := rfl
@[simp] theorem schedule_mode (e : Event) (d : Nat) : (schedule e d s).mode = s.mode := rfl
@[simp] theorem schedule_phase (e : Event) (d : Nat) : (schedule e d s).phase = s.phase := rfl
@[simp] theorem schedule_pending (e : Event) (d : Nat) :
    (schedule e d s).pending = some (e, s.now + d) := rfl
@[simp] theorem schedule_src (e : Event) (d : Nat) : (schedule e d s).src = s.src := rfl
@[simp] theorem schedule_statLine (e : Event) (d : Nat) : (schedule e d s).statLine = s.statLine := rfl
@[simp] theorem schedule_ly (e : Event) (d : Nat) : (schedule e d s).ly = s.ly := rfl
@[simp] theorem schedule_cmp (e : Event) (d : Nat) : (schedule e d s).cmp = s.cmp := rfl
@[simp] theorem schedule_lyc (e : Event) (d : Nat) : (schedule e d s).lyc = s.lyc := rfl
@[simp] theorem schedule_scy (e : Event) (d : Nat) : (schedule e d s).scy = s.scy := rfl
@[simp] theorem schedule_scx (e : Event) (d : Nat) : (schedule e d s).scx = s.scx := rfl
@[simp] theorem schedule_wy (e : Event) (d : Nat) : (schedule e d s).wy = s.wy := rfl
@[simp] theorem schedule_wx (e : Event) (d : Nat) : (schedule e d s).wx = s.wx := rfl
@[simp] theorem schedule_penalty (e : Event) (d : Nat) : (schedule e d s).penalty = s.penalty := rfl
@[simp] theorem schedule_windowLine (e : Event) (d : Nat) : (schedule e d s).windowLine = s.windowLine := rfl
@[simp] theorem schedule_firstFrame (e : Event) (d : Nat) : (schedule e d s).firstFrame = s.firstFrame := rfl
@[simp] theorem schedule_locks (e : Event) (d : Nat) : (schedule e d s).locks = s.locks := rfl
@[simp] theorem schedule_bgp (e : Event) (d : Nat) : (schedule e d s).bgp = s.bgp := rfl
@[simp] theorem schedule_obp0 (e : Event) (d : Nat) : (schedule e d s).obp0 = s.obp0 := rfl
@[simp] theorem schedule_obp1 (e : Event) (d : Nat) : (schedule e d s).obp1 = s.obp1 := rfl
@[simp] theorem schedule_colz (e : Event) (d : Nat) : (schedule e d s).colz = s.colz := rfl
@[simp] theorem schedule_bcps (e : Event) (d : Nat) : (schedule e d s).bcps = s.bcps := rfl
@[simp] theorem schedule_ocps (e : Event) (d : Nat) : (schedule e d s).ocps = s.ocps := rfl
@[simp] theorem schedule_bgCram (e : Event) (d : Nat) : (schedule e d s).bgCram = s.bgCram := rfl
@[simp] theorem schedule_objCram (e : Event) (d : Nat) : (schedule e d s).objCram = s.objCram := rfl
@[simp] theorem schedule_oam (e : Event) (d : Nat) : (schedule e d s).oam = s.oam := rfl
@[simp] theorem schedule_vram (e : Event) (d : Nat) : (schedule e d s).vram = s.vram := rfl
@[simp] theorem schedule_hdma (e : Event) (d : Nat) : (schedule e d s).hdma = s.hdma := rfl
@[simp] theorem schedule_fb (e : Event) (d : Nat) : (schedule e d s).fb = s.fb := rfl
@[simp] theorem schedule_cfg (e : Event) (d : Nat) : (schedule e d s).cfg = s.cfg := rfl
@[simp] theorem schedule_now (e : Event) (d : Nat) : (schedule e d s).now = s.now := rfl
@[simp] theorem schedule_vramBank (e : Event) (d : Nat) : (schedule e d s).vramBank = s.vramBank := rfl
@[simp] theorem schedule_doubleSpeed (e : Event) (d : Nat) : (schedule e d s).doubleSpeed = s.doubleSpeed := rfl
@[simp] theorem schedule_bus (e : Event) (d : Nat) : (schedule e d s).bus = s.bus := rfl
@[simp] theorem schedule_inputs (e : Event) (d : Nat) : (schedule e d s).inputs = s.inputs := rfl
@[simp] theorem schedule_outputs (e : Event) (d : Nat) : (schedule e d s).outputs = s.outputs := rfl
@[simp] theorem schedule_result (e : Event) (d : Nat) : (schedule e d s).result = s.result := rfl
@[simp] theorem schedule_busCount (e : Event) (d : Nat) : (schedule e d s).busCount = s.busCount := rfl
@[simp] theorem schedule_charge (e : Event) (d : Nat) : (schedule e d s).charge = s.charge := rfl

/-! ## vramSet -/

@[simp] theorem vramSet_lcdc (b : Fin 2) (off : VOff) (v : Byte) : (vramSet b off v s).lcdc = s.lcdc := rfl
@[simp] theorem vramSet_statEn (b : Fin 2) (off : VOff) (v : Byte) : (vramSet b off v s).statEn = s.statEn := rfl
@[simp] theorem vramSet_mode (b : Fin 2) (off : VOff) (v : Byte) : (vramSet b off v s).mode = s.mode := rfl
@[simp] theorem vramSet_phase (b : Fin 2) (off : VOff) (v : Byte) : (vramSet b off v s).phase = s.phase := rfl
@[simp] theorem vramSet_pending (b : Fin 2) (off : VOff) (v : Byte) : (vramSet b off v s).pending = s.pending := rfl
@[simp] theorem vramSet_src (b : Fin 2) (off : VOff) (v : Byte) : (vramSet b off v s).src = s.src := rfl
@[simp] theorem vramSet_statLine (b : Fin 2) (off : VOff) (v : Byte) : (vramSet b off v s).statLine = s.statLine := rfl
@[simp] theorem vramSet_ly (b : Fin 2) (off : VOff) (v : Byte) : (vramSet b off v s).ly = s.ly := rfl
@[simp] theorem vramSet_cmp (b : Fin 2) (off : VOff) (v : Byte) : (vramSet b off v s).cmp = s.cmp := rfl
@[simp] theorem vramSet_lyc (b : Fin 2) (off : VOff) (v : Byte) : (vramSet b off v s).lyc = s.lyc := rfl
@[simp] theorem vramSet_scy (b : Fin 2) (off : VOff) (v : Byte) : (vramSet b off v s).scy = s.scy := rfl
@[simp] theorem vramSet_scx (b : Fin 2) (off : VOff) (v : Byte) : (vramSet b off v s).scx = s.scx := rfl
@[simp] theorem vramSet_wy (b : Fin 2) (off : VOff) (v : Byte) : (vramSet b off v s).wy = s.wy := rfl
@[simp] theorem vramSet_wx (b : Fin 2) (off : VOff) (v : Byte) : (vramSet b off v s).wx = s.wx := rfl
@[simp] theorem vramSet_penalty (b : Fin 2) (off : VOff) (v : Byte) : (vramSet b off v s).penalty = s.penalty := rfl
@[simp] theorem vramSet_windowLine (b : Fin 2) (off : VOff) (v : Byte) : (vramSet b off v s).windowLine = s.windowLine := rfl
@[simp] theorem vramSet_firstFrame (b : Fin 2) (off : VOff) (v : Byte) : (vramSet b off v s).firstFrame = s.firstFrame := rfl
@[simp] theorem vramSet_locks (b : Fin 2) (off : VOff) (v : Byte) : (vramSet b off v s).locks = s.locks := rfl
@[simp] theorem vramSet_bgp (b : Fin 2) (off : VOff) (v : Byte) : (vramSet b off v s).bgp = s.bgp := rfl
@[simp] theorem vramSet_obp0 (b : Fin 2) (off : VOff) (v : Byte) : (vramSet b off v s).obp0 = s.obp0 := rfl
@[simp] theorem vramSet_obp1 (b : Fin 2) (off : VOff) (v : Byte) : (vramSet b off v s).obp1 = s.obp1 := rfl
@[simp] theorem vramSet_colz (b : Fin 2) (off : VOff) (v : Byte) : (vramSet b off v s).colz = s.colz := rfl
@[simp] theorem vramSet_bcps (b : Fin 2) (off : VOff) (v : Byte) : (vramSet b off v s).bcps = s.bcps := rfl
@[simp] theorem vramSet_ocps (b : Fin 2) (off : VOff) (v : Byte) : (vramSet b off v s).ocps = s.ocps := rfl
@[simp] theorem vramSet_bgCram (b : Fin 2) (off : VOff) (v : Byte) : (vramSet b off v s).bgCram = s.bgCram := rfl
@[simp] theorem vramSet_objCram (b : Fin 2) (off : VOff) (v : Byte) : (vramSet b off v s).objCram = s.objCram := rfl
@[simp] theorem vramSet_oam (b : Fin 2) (off : VOff) (v : Byte) : (vramSet b off v s).oam = s.oam := rfl
@[simp] theorem vramSet_vram (b : Fin 2) (off : VOff) (v : Byte) :
    (vramSet b off v s).vram = s.vram.write (vramKey b off.toNat) v := rfl
@[simp] theorem vramSet_hdma (b : Fin 2) (off : VOff) (v : Byte) : (vramSet b off v s).hdma = s.hdma := rfl
@[simp] theorem vramSet_fb (b : Fin 2) (off : VOff) (v : Byte) : (vramSet b off v s).fb = s.fb := rfl
@[simp] theorem vramSet_cfg (b : Fin 2) (off : VOff) (v : Byte) : (vramSet b off v s).cfg = s.cfg := rfl
@[simp] theorem vramSet_now (b : Fin 2) (off : VOff) (v : Byte) : (vramSet b off v s).now = s.now := rfl
@[simp] theorem vramSet_vramBank (b : Fin 2) (off : VOff) (v : Byte) : (vramSet b off v s).vramBank = s.vramBank := rfl
@[simp] theorem vramSet_doubleSpeed (b : Fin 2) (off : VOff) (v : Byte) : (vramSet b off v s).doubleSpeed = s.doubleSpeed := rfl
@[simp] theorem vramSet_bus (b : Fin 2) (off : VOff) (v : Byte) : (vramSet b off v s).bus = s.bus := rfl
@[simp] theorem vramSet_inputs (b : Fin 2) (off : VOff) (v : Byte) : (vramSet b off v s).inputs = s.inputs := rfl
@[simp] theorem vramSet_outputs (b : Fin 2) (off : VOff) (v : Byte) : (vramSet b off v s).outputs = s.outputs := rfl
@[simp] theorem vramSet_result (b : Fin 2) (off : VOff) (v : Byte) : (vramSet b off v s).result = s.result := rfl
@[simp] theorem vramSet_busCount (b : Fin 2) (off : VOff) (v : Byte) : (vramSet b off v s).busCount = s.busCount := rfl
@[simp] theorem vramSet_charge (b : Fin 2) (off : VOff) (v : Byte) : (vramSet b off v s).charge = s.charge := rfl

/-! ## oamSet -/

@[simp] theorem oamSet_lcdc (off : Fin 160) (v : Byte) : (oamSet off v s).lcdc = s.lcdc := rfl
@[simp] theorem oamSet_statEn (off : Fin 160) (v : Byte) : (oamSet off v s).statEn = s.statEn := rfl
@[simp] theorem oamSet_mode (off : Fin 160) (v : Byte) : (oamSet off v s).mode = s.mode := rfl
@[simp] theorem oamSet_phase (off : Fin 160) (v : Byte) : (oamSet off v s).phase = s.phase := rfl
@[simp] theorem oamSet_pending (off : Fin 160) (v : Byte) : (oamSet off v s).pending = s.pending := rfl
@[simp] theorem oamSet_src (off : Fin 160) (v : Byte) : (oamSet off v s).src = s.src := rfl
@[simp] theorem oamSet_statLine (off : Fin 160) (v : Byte) : (oamSet off v s).statLine = s.statLine := rfl
@[simp] theorem oamSet_ly (off : Fin 160) (v : Byte) : (oamSet off v s).ly = s.ly := rfl
@[simp] theorem oamSet_cmp (off : Fin 160) (v : Byte) : (oamSet off v s).cmp = s.cmp := rfl
@[simp] theorem oamSet_lyc (off : Fin 160) (v : Byte) : (oamSet off v s).lyc = s.lyc := rfl
@[simp] theorem oamSet_scy (off : Fin 160) (v : Byte) : (oamSet off v s).scy = s.scy := rfl
@[simp] theorem oamSet_scx (off : Fin 160) (v : Byte) : (oamSet off v s).scx = s.scx := rfl
@[simp] theorem oamSet_wy (off : Fin 160) (v : Byte) : (oamSet off v s).wy = s.wy := rfl
@[simp] theorem oamSet_wx (off : Fin 160) (v : Byte) : (oamSet off v s).wx = s.wx := rfl
@[simp] theorem oamSet_penalty (off : Fin 160) (v : Byte) : (oamSet off v s).penalty = s.penalty := rfl
@[simp] theorem oamSet_windowLine (off : Fin 160) (v : Byte) : (oamSet off v s).windowLine = s.windowLine := rfl
@[simp] theorem oamSet_firstFrame (off : Fin 160) (v : Byte) : (oamSet off v s).firstFrame = s.firstFrame := rfl
@[simp] theorem oamSet_locks (off : Fin 160) (v : Byte) : (oamSet off v s).locks = s.locks := rfl
@[simp] theorem oamSet_bgp (off : Fin 160) (v : Byte) : (oamSet off v s).bgp = s.bgp := rfl
@[simp] theorem oamSet_obp0 (off : Fin 160) (v : Byte) : (oamSet off v s).obp0 = s.obp0 := rfl
@[simp] theorem oamSet_obp1 (off : Fin 160) (v : Byte) : (oamSet off v s).obp1 = s.obp1 := rfl
@[simp] theorem oamSet_colz (off : Fin 160) (v : Byte) : (oamSet off v s).colz = s.colz := rfl
@[simp] theorem oamSet_bcps (off : Fin 160) (v : Byte) : (oamSet off v s).bcps = s.bcps := rfl
@[simp] theorem oamSet_ocps (off : Fin 160) (v : Byte) : (oamSet off v s).ocps = s.ocps := rfl
@[simp] theorem oamSet_bgCram (off : Fin 160) (v : Byte) : (oamSet off v s).bgCram = s.bgCram := rfl
@[simp] theorem oamSet_objCram (off : Fin 160) (v : Byte) : (oamSet off v s).objCram = s.objCram := rfl
@[simp] theorem oamSet_oam (off : Fin 160) (v : Byte) :
    (oamSet off v s).oam = s.oam.write off.val v := rfl
@[simp] theorem oamSet_vram (off : Fin 160) (v : Byte) : (oamSet off v s).vram = s.vram := rfl
@[simp] theorem oamSet_hdma (off : Fin 160) (v : Byte) : (oamSet off v s).hdma = s.hdma := rfl
@[simp] theorem oamSet_fb (off : Fin 160) (v : Byte) : (oamSet off v s).fb = s.fb := rfl
@[simp] theorem oamSet_cfg (off : Fin 160) (v : Byte) : (oamSet off v s).cfg = s.cfg := rfl
@[simp] theorem oamSet_now (off : Fin 160) (v : Byte) : (oamSet off v s).now = s.now := rfl
@[simp] theorem oamSet_vramBank (off : Fin 160) (v : Byte) : (oamSet off v s).vramBank = s.vramBank := rfl
@[simp] theorem oamSet_doubleSpeed (off : Fin 160) (v : Byte) : (oamSet off v s).doubleSpeed = s.doubleSpeed := rfl
@[simp] theorem oamSet_bus (off : Fin 160) (v : Byte) : (oamSet off v s).bus = s.bus := rfl
@[simp] theorem oamSet_inputs (off : Fin 160) (v : Byte) : (oamSet off v s).inputs = s.inputs := rfl
@[simp] theorem oamSet_outputs (off : Fin 160) (v : Byte) : (oamSet off v s).outputs = s.outputs := rfl
@[simp] theorem oamSet_result (off : Fin 160) (v : Byte) : (oamSet off v s).result = s.result := rfl
@[simp] theorem oamSet_busCount (off : Fin 160) (v : Byte) : (oamSet off v s).busCount = s.busCount := rfl
@[simp] theorem oamSet_charge (off : Fin 160) (v : Byte) : (oamSet off v s).charge = s.charge := rfl

/-! ## busTick -/

@[simp] theorem busTick_lcdc : (busTick s).lcdc = s.lcdc := rfl
@[simp] theorem busTick_statEn : (busTick s).statEn = s.statEn := rfl
@[simp] theorem busTick_mode : (busTick s).mode = s.mode := rfl
@[simp] theorem busTick_phase : (busTick s).phase = s.phase := rfl
@[simp] theorem busTick_pending : (busTick s).pending = s.pending := rfl
@[simp] theorem busTick_src : (busTick s).src = s.src := rfl
@[simp] theorem busTick_statLine : (busTick s).statLine = s.statLine := rfl
@[simp] theorem busTick_ly : (busTick s).ly = s.ly := rfl
@[simp] theorem busTick_cmp : (busTick s).cmp = s.cmp := rfl
@[simp] theorem busTick_lyc : (busTick s).lyc = s.lyc := rfl
@[simp] theorem busTick_scy : (busTick s).scy = s.scy := rfl
@[simp] theorem busTick_scx : (busTick s).scx = s.scx := rfl
@[simp] theorem busTick_wy : (busTick s).wy = s.wy := rfl
@[simp] theorem busTick_wx : (busTick s).wx = s.wx := rfl
@[simp] theorem busTick_penalty : (busTick s).penalty = s.penalty := rfl
@[simp] theorem busTick_windowLine : (busTick s).windowLine = s.windowLine := rfl
@[simp] theorem busTick_firstFrame : (busTick s).firstFrame = s.firstFrame := rfl
@[simp] theorem busTick_locks : (busTick s).locks = s.locks := rfl
@[simp] theorem busTick_bgp : (busTick s).bgp = s.bgp := rfl
@[simp] theorem busTick_obp0 : (busTick s).obp0 = s.obp0 := rfl
@[simp] theorem busTick_obp1 : (busTick s).obp1 = s.obp1 := rfl
@[simp] theorem busTick_colz : (busTick s).colz = s.colz := rfl
@[simp] theorem busTick_bcps : (busTick s).bcps = s.bcps := rfl
@[simp] theorem busTick_ocps : (busTick s).ocps = s.ocps := rfl
@[simp] theorem busTick_bgCram : (busTick s).bgCram = s.bgCram := rfl
@[simp] theorem busTick_objCram : (busTick s).objCram = s.objCram := rfl
@[simp] theorem busTick_oam : (busTick s).oam = s.oam := rfl
@[simp] theorem busTick_vram : (busTick s).vram = s.vram := rfl
@[simp] theorem busTick_hdma : (busTick s).hdma = s.hdma := rfl
@[simp] theorem busTick_fb : (busTick s).fb = s.fb := rfl
@[simp] theorem busTick_cfg : (busTick s).cfg = s.cfg := rfl
@[simp] theorem busTick_now : (busTick s).now = s.now := rfl
@[simp] theorem busTick_vramBank : (busTick s).vramBank = s.vramBank := rfl
@[simp] theorem busTick_doubleSpeed : (busTick s).doubleSpeed = s.doubleSpeed := rfl
@[simp] theorem busTick_bus : (busTick s).bus = s.bus := rfl
@[simp] theorem busTick_inputs : (busTick s).inputs = s.inputs := rfl
@[simp] theorem busTick_outputs : (busTick s).outputs = s.outputs := rfl
@[simp] theorem busTick_result : (busTick s).result = s.result := rfl
@[simp] theorem busTick_busCount :
    (busTick s).busCount = s.busCount + 1 := rfl
@[simp] theorem busTick_charge : (busTick s).charge = s.charge := rfl

/-! ## respond -/

@[simp] theorem respond_lcdc (v : Byte) : (respond v s).lcdc = s.lcdc := rfl
@[simp] theorem respond_statEn (v : Byte) : (respond v s).statEn = s.statEn := rfl
@[simp] theorem respond_mode (v : Byte) : (respond v s).mode = s.mode := rfl
@[simp] theorem respond_phase (v : Byte) : (respond v s).phase = s.phase := rfl
@[simp] theorem respond_pending (v : Byte) : (respond v s).pending = s.pending := rfl
@[simp] theorem respond_src (v : Byte) : (respond v s).src = s.src := rfl
@[simp] theorem respond_statLine (v : Byte) : (respond v s).statLine = s.statLine := rfl
@[simp] theorem respond_ly (v : Byte) : (respond v s).ly = s.ly := rfl
@[simp] theorem respond_cmp (v : Byte) : (respond v s).cmp = s.cmp := rfl
@[simp] theorem respond_lyc (v : Byte) : (respond v s).lyc = s.lyc := rfl
@[simp] theorem respond_scy (v : Byte) : (respond v s).scy = s.scy := rfl
@[simp] theorem respond_scx (v : Byte) : (respond v s).scx = s.scx := rfl
@[simp] theorem respond_wy (v : Byte) : (respond v s).wy = s.wy := rfl
@[simp] theorem respond_wx (v : Byte) : (respond v s).wx = s.wx := rfl
@[simp] theorem respond_penalty (v : Byte) : (respond v s).penalty = s.penalty := rfl
@[simp] theorem respond_windowLine (v : Byte) : (respond v s).windowLine = s.windowLine := rfl
@[simp] theorem respond_firstFrame (v : Byte) : (respond v s).firstFrame = s.firstFrame := rfl
@[simp] theorem respond_locks (v : Byte) : (respond v s).locks = s.locks := rfl
@[simp] theorem respond_bgp (v : Byte) : (respond v s).bgp = s.bgp := rfl
@[simp] theorem respond_obp0 (v : Byte) : (respond v s).obp0 = s.obp0 := rfl
@[simp] theorem respond_obp1 (v : Byte) : (respond v s).obp1 = s.obp1 := rfl
@[simp] theorem respond_colz (v : Byte) : (respond v s).colz = s.colz := rfl
@[simp] theorem respond_bcps (v : Byte) : (respond v s).bcps = s.bcps := rfl
@[simp] theorem respond_ocps (v : Byte) : (respond v s).ocps = s.ocps := rfl
@[simp] theorem respond_bgCram (v : Byte) : (respond v s).bgCram = s.bgCram := rfl
@[simp] theorem respond_objCram (v : Byte) : (respond v s).objCram = s.objCram := rfl
@[simp] theorem respond_oam (v : Byte) : (respond v s).oam = s.oam := rfl
@[simp] theorem respond_vram (v : Byte) : (respond v s).vram = s.vram := rfl
@[simp] theorem respond_hdma (v : Byte) : (respond v s).hdma = s.hdma := rfl
@[simp] theorem respond_fb (v : Byte) : (respond v s).fb = s.fb := rfl
@[simp] theorem respond_cfg (v : Byte) : (respond v s).cfg = s.cfg := rfl
@[simp] theorem respond_now (v : Byte) : (respond v s).now = s.now := rfl
@[simp] theorem respond_vramBank (v : Byte) : (respond v s).vramBank = s.vramBank := rfl
@[simp] theorem respond_doubleSpeed (v : Byte) : (respond v s).doubleSpeed = s.doubleSpeed := rfl
@[simp] theorem respond_bus (v : Byte) : (respond v s).bus = s.bus := rfl
@[simp] theorem respond_inputs (v : Byte) : (respond v s).inputs = s.inputs := rfl
@[simp] theorem respond_outputs (v : Byte) : (respond v s).outputs = s.outputs := rfl
@[simp] theorem respond_result (v : Byte) :
    (respond v s).result = some v := rfl
@[simp] theorem respond_busCount (v : Byte) : (respond v s).busCount = s.busCount := rfl
@[simp] theorem respond_charge (v : Byte) : (respond v s).charge = s.charge := rfl

end Sys2Proof.Machine
end

