-- ==== Sys2Proof/Laws/Effects.lean ====
section
/-! SUPPORT. What each shared operation does, said once as one record update or one frame: the
recomputation, the locks, the DMA engine's copies, the composition. Later proofs cite these and do not
unfold the operations. -/

namespace Sys2Proof.Machine

/-! ## The STAT line and the locks -/

/-- A recomputation touches the line and the history only. -/
theorem recompute_eq (s : State) :
    recompute s = { s with statLine := statSources s, outputs := s.outputs ++ statEdge s } := by
  unfold recompute statEdge
  by_cases h : statSources s = true <;> by_cases g : s.statLine = true <;> simp [h, g, emit]

/-- `lockSet` touches the locks and the history only. -/
theorem lockSet_eq (l : Locks) (s : State) :
    lockSet l s = { s with locks := l, outputs := s.outputs ++ lockChange l s } := by
  unfold lockSet lockChange
  by_cases h : s.locks = l
  · subst h; simp
  · simp [h, emit]

/-! ## The DMA engine -/

/-- One byte's copy touches VRAM and the count of Bus reads only. -/
theorem copyByte_eq (s : State) (i : Nat) :
    copyByte s i = { s with
      vram := s.vram.write (vramKey (bankInUse s) (hdmaOffset s i).toNat)
        (busRead s (s.hdma.src + BitVec.ofNat 16 i))
      busCount := s.busCount + 1 } := rfl

/-- A run of byte copies touches VRAM and the count of Bus reads only. -/
theorem copyBytes_eq (is : List Nat) (s : State) :
    is.foldl copyByte s = { s with
      vram := (is.foldl copyByte s).vram, busCount := s.busCount + is.length } := by
  induction is generalizing s with
  | nil => rfl
  | cons i rest ih =>
    rw [List.foldl_cons, ih, copyByte_eq]
    simp [Nat.add_assoc, Nat.add_comm 1]

/-- A run of byte copies keeps VRAM canonical. -/
theorem copyBytes_wf (is : List Nat) {s : State} (h : Memory.wf 0x4000 s.vram = true) :
    Memory.wf 0x4000 (is.foldl copyByte s).vram = true := by
  induction is generalizing s with
  | nil => exact h
  | cons i rest ih =>
    rw [List.foldl_cons]
    apply ih
    rw [copyByte_eq]
    exact Memory.wf_write _ h (vramKey_lt _ _)

/-- One block touches VRAM, the count of Bus reads and the two addresses only. -/
theorem copyBlock_eq (s : State) :
    copyBlock s = { s with
      vram := (copyBlock s).vram
      busCount := s.busCount + 16
      hdma := { s.hdma with src := s.hdma.src + 16#16, dst := hdmaDstNext s.hdma.dst } } := by
  have h := copyBytes_eq (List.range 16) s
  unfold copyBlock
  generalize (List.range 16).foldl copyByte s = t at h ⊢
  rw [h]
  simp

/-- One block keeps VRAM canonical. -/
theorem copyBlock_wf {s : State} (h : Memory.wf 0x4000 s.vram = true) :
    Memory.wf 0x4000 (copyBlock s).vram = true := by
  have := copyBytes_wf (List.range 16) h
  unfold copyBlock
  exact this

/-- `n` blocks are `copyBlock`, `n` times. -/
theorem copyBlocks_iterate (n : Nat) (s : State) : copyBlocks n s = copyBlock^[n] s := by
  induction n generalizing s with
  | zero => rfl
  | succ k ih => exact ih _

/-- The addresses after `n` blocks. -/
theorem copyBlocks_eq (n : Nat) (s : State) :
    copyBlocks n s = { s with
      vram := (copyBlocks n s).vram
      busCount := s.busCount + 16 * n
      hdma := { s.hdma with src := (copyBlocks n s).hdma.src, dst := (copyBlocks n s).hdma.dst } } := by
  induction n generalizing s with
  | zero => rfl
  | succ k ih =>
    unfold copyBlocks
    rw [ih, copyBlock_eq]
    simp [Nat.mul_add, Nat.add_assoc, Nat.add_comm 16]

/-- Blocks keep VRAM canonical. -/
theorem copyBlocks_wf (n : Nat) {s : State} (h : Memory.wf 0x4000 s.vram = true) :
    Memory.wf 0x4000 (copyBlocks n s).vram = true := by
  induction n generalizing s with
  | zero => exact h
  | succ k ih => exact ih (copyBlock_wf h)

/-- Two states agree on what a copy reads: VRAM, the bank in use, the addresses, the Bus. -/
def SameCopy (s t : State) : Prop :=
  s.vram = t.vram ∧ s.hdma.src = t.hdma.src ∧ s.hdma.dst = t.hdma.dst
  ∧ bankInUse s = bankInUse t ∧ s.bus = t.bus ∧ s.busCount = t.busCount

/-- A byte's copy depends on nothing else. -/
theorem copyByte_same {s t : State} (i : Nat) (h : SameCopy s t) : SameCopy (copyByte s i) (copyByte t i) := by
  obtain ⟨h1, h2, h3, h4, h5, h6⟩ := h
  refine ⟨?_, h2, h3, h4, h5, congrArg (· + 1) h6⟩
  simp [copyByte, busTick, vramSet, hdmaOffset, busRead, vramAt, busOutside, h1, h2, h3, h4, h5, h6]

/-- A block's copy depends on nothing else. -/
theorem copyBlock_same {s t : State} (h : SameCopy s t) : SameCopy (copyBlock s) (copyBlock t) := by
  have key : ∀ (is : List Nat) (s t : State), SameCopy s t →
      SameCopy (is.foldl copyByte s) (is.foldl copyByte t) := by
    intro is
    induction is with
    | nil => exact fun _ _ h => h
    | cons i rest ih => exact fun _ _ h => ih _ _ (copyByte_same i h)
  obtain ⟨h1, h2, h3, h4, h5, h6⟩ := key (List.range 16) s t h
  exact ⟨h1, congrArg (· + 16#16) h2, congrArg hdmaDstNext h3, h4, h5, h6⟩

/-- Copying blocks depends on nothing else. -/
theorem copyBlocks_same (n : Nat) {s t : State} (h : SameCopy s t) :
    SameCopy (copyBlocks n s) (copyBlocks n t) := by
  induction n generalizing s t with
  | zero => exact h
  | succ k ih => exact ih (copyBlock_same h)

/-- A legal destination stays legal: on a block boundary of the VRAM window. -/
theorem hdmaDstNext_legal {d : Addr} (h : 0x8000 ≤ d.toNat ∧ d.toNat ≤ 0x9FF0 ∧ d.toNat % 16 = 0) :
    0x8000 ≤ (hdmaDstNext d).toNat ∧ (hdmaDstNext d).toNat ≤ 0x9FF0 ∧ (hdmaDstNext d).toNat % 16 = 0 := by
  unfold hdmaDstNext
  split
  · decide
  · rename_i hne
    have : d.toNat ≠ 0x9FF0 := fun hc => hne (BitVec.eq_of_toNat_eq hc)
    simp only [BitVec.toNat_add, BitVec.toNat_ofNat]
    omega

/-- A block's source stays a multiple of 16. -/
theorem hdmaSrcNext_legal {a : Addr} (h : a.toNat % 16 = 0) : (a + 16#16).toNat % 16 = 0 := by
  simp only [BitVec.toNat_add, BitVec.toNat_ofNat]
  omega

/-- One block of a transfer touches VRAM, the engine, the charge and the history only. -/
theorem hdmaBlock_eq (s : State) :
    hdmaBlock s = { s with
      vram := (copyBlock s).vram
      busCount := s.busCount + 16
      hdma := countBlock { s.hdma with src := s.hdma.src + 16#16, dst := hdmaDstNext s.hdma.dst }
      outputs := s.outputs ++ [(s.now, .advance (blockCost s))]
      charge := s.charge + blockCost s } := by
  have h := copyBlock_eq s
  unfold hdmaBlock
  generalize copyBlock s = t at h ⊢
  rw [h]
  simp [emit, blockCost, unitsPerByte]

/-- A general-purpose transfer touches VRAM, the engine, the charge and the history only. -/
theorem gdma_eq (n : Nat) (s : State) :
    gdma n s = { s with
      vram := (gdma n s).vram
      busCount := s.busCount + 16 * n
      hdma := { s.hdma with
        src := (gdma n s).hdma.src, dst := (gdma n s).hdma.dst
        rem := 0, active := false, paused := false, complete := true }
      outputs := s.outputs ++ [(s.now, .advance (n * blockCost s))]
      charge := s.charge + n * blockCost s } := by
  have h := copyBlocks_eq n { s with hdma := { s.hdma with active := false, paused := false } }
  unfold gdma
  generalize copyBlocks n { s with hdma := { s.hdma with active := false, paused := false } } = t at h ⊢
  rw [h]
  simp [emit, blockCost, unitsPerByte]

/-- A general-purpose transfer keeps VRAM canonical. -/
theorem gdma_wf (n : Nat) {s : State} (h : Memory.wf 0x4000 s.vram = true) :
    Memory.wf 0x4000 (gdma n s).vram = true := by
  have := copyBlocks_wf n (s := { s with hdma := { s.hdma with active := false, paused := false } }) h
  unfold gdma
  exact this

/-! ## The two large register writes -/

/-- The write to HDMA5 touches VRAM, the engine, the charge and the history only. -/
theorem hdma5Write_frame (v : Byte) (s : State) :
    hdma5Write v s = { s with
      vram := (hdma5Write v s).vram
      busCount := (hdma5Write v s).busCount
      hdma := (hdma5Write v s).hdma
      outputs := (hdma5Write v s).outputs
      charge := (hdma5Write v s).charge } := by
  unfold hdma5Write
  split
  · split
    · unfold hdmaStart
      simp only []
      split
      · rw [hdmaBlock_eq]; rfl
      · rfl
    · unfold hdmaPauseOrGdma
      split
      · rfl
      · rw [gdma_eq]
  · rfl

/-- The write to LCDC touches the sequencer, the line counter, the locks and the history only. -/
theorem lcdcWrite_frame (v : Byte) (s : State) :
    lcdcWrite v s = { s with
      lcdc := v
      mode := (lcdcWrite v s).mode
      phase := (lcdcWrite v s).phase
      pending := (lcdcWrite v s).pending
      src := (lcdcWrite v s).src
      statLine := (lcdcWrite v s).statLine
      ly := (lcdcWrite v s).ly
      cmp := (lcdcWrite v s).cmp
      windowLine := (lcdcWrite v s).windowLine
      firstFrame := (lcdcWrite v s).firstFrame
      locks := (lcdcWrite v s).locks
      outputs := (lcdcWrite v s).outputs } := by
  unfold lcdcWrite
  extract_lets t
  split
  · simp only [lcdEnable, t, setSrc, storeLY, setLY, recompute_eq, emit, schedule]
  · split
    · simp only [lcdDisable, t, setSrc, storeLY, setLY, recompute_eq, lockSet_eq, emit, deschedule]
      split <;> rfl
    · rfl

end Sys2Proof.Machine
end

