-- ==== Sys2Proof/Laws/PerInstr.lean ====
section
/-! SUPPORT. Per instruction: the word of every operation matches its own row of
spec/opcode_table.json. The rows' `match` and `mask` values are written out from the table. -/

namespace Sys2Proof.Laws.RowMatch

/-- A row's `match` and `mask`, over bits 19–0 of the operation word. -/
structure RowBits where
  value : BitVec 20
  mask : BitVec 20

/-- The row of spec/opcode_table.json that an operation stands for. -/
def row (i : Instr) : RowBits :=
  match i with
  | .rdVram _ => ⟨0x08000#20, 0xFE000#20⟩
  | .wrVram _ _ => ⟨0x18000#20, 0xFE000#20⟩
  | .rdOam _ => ⟨0x0FE00#20, 0xFFF00#20⟩
  | .wrOam _ _ => ⟨0x1FE00#20, 0xFFF00#20⟩
  | .rdLcdc => ⟨0x0FF40#20, 0xFFFFF#20⟩
  | .wrLcdc _ => ⟨0x1FF40#20, 0xFFFFF#20⟩
  | .rdStat => ⟨0x0FF41#20, 0xFFFFF#20⟩
  | .wrStat _ => ⟨0x1FF41#20, 0xFFFFF#20⟩
  | .wrStatDmg _ => ⟨0x1FF41#20, 0xFFFFF#20⟩
  | .rdScy => ⟨0x0FF42#20, 0xFFFFF#20⟩
  | .wrScy _ => ⟨0x1FF42#20, 0xFFFFF#20⟩
  | .rdScx => ⟨0x0FF43#20, 0xFFFFF#20⟩
  | .wrScx _ => ⟨0x1FF43#20, 0xFFFFF#20⟩
  | .rdLy => ⟨0x0FF44#20, 0xFFFFF#20⟩
  | .wrLy _ => ⟨0x1FF44#20, 0xFFFFF#20⟩
  | .rdLyc => ⟨0x0FF45#20, 0xFFFFF#20⟩
  | .wrLyc _ => ⟨0x1FF45#20, 0xFFFFF#20⟩
  | .rdBgp => ⟨0x0FF47#20, 0xFFFFF#20⟩
  | .wrBgp _ => ⟨0x1FF47#20, 0xFFFFF#20⟩
  | .rdObp0 => ⟨0x0FF48#20, 0xFFFFF#20⟩
  | .wrObp0 _ => ⟨0x1FF48#20, 0xFFFFF#20⟩
  | .rdObp1 => ⟨0x0FF49#20, 0xFFFFF#20⟩
  | .wrObp1 _ => ⟨0x1FF49#20, 0xFFFFF#20⟩
  | .rdWy => ⟨0x0FF4A#20, 0xFFFFF#20⟩
  | .wrWy _ => ⟨0x1FF4A#20, 0xFFFFF#20⟩
  | .rdWx => ⟨0x0FF4B#20, 0xFFFFF#20⟩
  | .wrWx _ => ⟨0x1FF4B#20, 0xFFFFF#20⟩
  | .rdHdma1 => ⟨0x0FF51#20, 0xFFFFF#20⟩
  | .wrHdma1 _ => ⟨0x1FF51#20, 0xFFFFF#20⟩
  | .rdHdma2 => ⟨0x0FF52#20, 0xFFFFF#20⟩
  | .wrHdma2 _ => ⟨0x1FF52#20, 0xFFFFF#20⟩
  | .rdHdma3 => ⟨0x0FF53#20, 0xFFFFF#20⟩
  | .wrHdma3 _ => ⟨0x1FF53#20, 0xFFFFF#20⟩
  | .rdHdma4 => ⟨0x0FF54#20, 0xFFFFF#20⟩
  | .wrHdma4 _ => ⟨0x1FF54#20, 0xFFFFF#20⟩
  | .rdHdma5 => ⟨0x0FF55#20, 0xFFFFF#20⟩
  | .wrHdma5 _ => ⟨0x1FF55#20, 0xFFFFF#20⟩
  | .rdBcps => ⟨0x0FF68#20, 0xFFFFF#20⟩
  | .wrBcps _ => ⟨0x1FF68#20, 0xFFFFF#20⟩
  | .rdBcpd => ⟨0x0FF69#20, 0xFFFFF#20⟩
  | .wrBcpd _ => ⟨0x1FF69#20, 0xFFFFF#20⟩
  | .rdOcps => ⟨0x0FF6A#20, 0xFFFFF#20⟩
  | .wrOcps _ => ⟨0x1FF6A#20, 0xFFFFF#20⟩
  | .rdOcpd => ⟨0x0FF6B#20, 0xFFFFF#20⟩
  | .wrOcpd _ => ⟨0x1FF6B#20, 0xFFFFF#20⟩
  | .evGlitchXfer => ⟨0x20001#20, 0xFFFFF#20⟩
  | .evGlitchHblank => ⟨0x20002#20, 0xFFFFF#20⟩
  | .evLine0Start => ⟨0x20003#20, 0xFFFFF#20⟩
  | .evOamCont => ⟨0x20004#20, 0xFFFFF#20⟩
  | .evXferStart => ⟨0x20005#20, 0xFFFFF#20⟩
  | .evHblankPre => ⟨0x20006#20, 0xFFFFF#20⟩
  | .evHblankStart => ⟨0x20007#20, 0xFFFFF#20⟩
  | .evHblankEnd => ⟨0x20008#20, 0xFFFFF#20⟩
  | .evVblankCont => ⟨0x20009#20, 0xFFFFF#20⟩
  | .evVblankLine => ⟨0x2000A#20, 0xFFFFF#20⟩
  | .evL153Cont => ⟨0x2000B#20, 0xFFFFF#20⟩
  | .evL153End => ⟨0x2000C#20, 0xFFFFF#20⟩
  | .evL153FrameEnd => ⟨0x2000D#20, 0xFFFFF#20⟩
  | .reset => ⟨0x30000#20, 0xFFFFF#20⟩
  | .oamBatch _ => ⟨0x30001#20, 0xFFFFF#20⟩
  | .vramBatch _ => ⟨0x30002#20, 0xFFFFF#20⟩
  | .advance _ => ⟨0x30003#20, 0xFFFFF#20⟩

/-- The operation's word, masked, is its row's `match`. -/
def Statement (i : Instr) : Prop :=
  (encode i).word.extractLsb' 0 20 &&& (row i).mask = (row i).value

/-- The low 20 bits of a built word: class and argument. -/
theorem low20 (d : Byte) (c : BitVec 4) (a : Addr) : BitVec.extractLsb' 0 20 (mkWord d c a) = c ++ a := by
  have h : mkWord d c a = (d ++ (c ++ a) : BitVec (8 + (4 + 16))) := by
    apply BitVec.eq_of_toNat_eq
    simp only [mkWord, BitVec.toNat_append, Nat.shiftLeft_or_distrib, ← Nat.shiftLeft_add, Nat.lor_assoc]
  rw [h]
  exact append_low d (c ++ a)

/-- A word with a fixed address or number matches a full mask. -/
theorem full {d : Byte} {c : BitVec 4} {a : Addr} {r : BitVec 20} (h : c ++ a = r) :
    BitVec.extractLsb' 0 20 (mkWord d c a) &&& 0xFFFFF#20 = r := by
  rw [low20, h]
  exact BitVec.and_allOnes

/-- A VRAM word matches its row's mask: the offset is in the low 13 bits. -/
theorem window13 (d : Byte) (c : BitVec 4) (off : VOff) :
    BitVec.extractLsb' 0 20 (mkWord d c (0b100#3 ++ off)) &&& 0xFE000#20 = c ++ (0b100#3 ++ 0#13) := by
  rw [low20]
  have bits : ∀ i, i < 20 → (0xFE000#20).getLsbD i = decide (13 ≤ i) := by decide
  apply BitVec.eq_of_getLsbD_eq
  intro i hi
  rw [BitVec.getLsbD_and, bits i hi]
  simp only [BitVec.getLsbD_append]
  by_cases h : i < 13
  · simp [h, show i < 3 + 13 by omega]
  · simp only [h, if_false, show 13 ≤ i by omega, decide_true, Bool.and_true]

/-- An OAM word matches its row's mask: the offset is in the low 8 bits. -/
theorem window8 (d : Byte) (c : BitVec 4) (off : Byte) :
    BitVec.extractLsb' 0 20 (mkWord d c (0xFE#8 ++ off)) &&& 0xFFF00#20 = c ++ (0xFE#8 ++ 0#8) := by
  rw [low20]
  have bits : ∀ i, i < 20 → (0xFFF00#20).getLsbD i = decide (8 ≤ i) := by decide
  apply BitVec.eq_of_getLsbD_eq
  intro i hi
  rw [BitVec.getLsbD_and, bits i hi]
  simp only [BitVec.getLsbD_append]
  by_cases h : i < 8
  · simp [h, show i < 8 + 8 by omega]
  · simp only [h, if_false, show 8 ≤ i by omega, decide_true, Bool.and_true]

theorem rdVram (off : VOff) : Statement (.rdVram off) := window13 _ _ off
theorem wrVram (off : VOff) (data : Byte) : Statement (.wrVram off data) := window13 _ _ off
theorem rdOam (off : Fin 160) : Statement (.rdOam off) := window8 _ _ (BitVec.ofNat 8 off.val)
theorem wrOam (off : Fin 160) (data : Byte) : Statement (.wrOam off data) := window8 _ _ (BitVec.ofNat 8 off.val)
theorem rdLcdc : Statement (.rdLcdc) := full rfl
theorem wrLcdc (data : Byte) : Statement (.wrLcdc data) := full rfl
theorem rdStat : Statement (.rdStat) := full rfl
theorem wrStat (data : Byte) : Statement (.wrStat data) := full rfl
theorem wrStatDmg (data : Byte) : Statement (.wrStatDmg data) := full rfl
theorem rdScy : Statement (.rdScy) := full rfl
theorem wrScy (data : Byte) : Statement (.wrScy data) := full rfl
theorem rdScx : Statement (.rdScx) := full rfl
theorem wrScx (data : Byte) : Statement (.wrScx data) := full rfl
theorem rdLy : Statement (.rdLy) := full rfl
theorem wrLy (data : Byte) : Statement (.wrLy data) := full rfl
theorem rdLyc : Statement (.rdLyc) := full rfl
theorem wrLyc (data : Byte) : Statement (.wrLyc data) := full rfl
theorem rdBgp : Statement (.rdBgp) := full rfl
theorem wrBgp (data : Byte) : Statement (.wrBgp data) := full rfl
theorem rdObp0 : Statement (.rdObp0) := full rfl
theorem wrObp0 (data : Byte) : Statement (.wrObp0 data) := full rfl
theorem rdObp1 : Statement (.rdObp1) := full rfl
theorem wrObp1 (data : Byte) : Statement (.wrObp1 data) := full rfl
theorem rdWy : Statement (.rdWy) := full rfl
theorem wrWy (data : Byte) : Statement (.wrWy data) := full rfl
theorem rdWx : Statement (.rdWx) := full rfl
theorem wrWx (data : Byte) : Statement (.wrWx data) := full rfl
theorem rdHdma1 : Statement (.rdHdma1) := full rfl
theorem wrHdma1 (data : Byte) : Statement (.wrHdma1 data) := full rfl
theorem rdHdma2 : Statement (.rdHdma2) := full rfl
theorem wrHdma2 (data : Byte) : Statement (.wrHdma2 data) := full rfl
theorem rdHdma3 : Statement (.rdHdma3) := full rfl
theorem wrHdma3 (data : Byte) : Statement (.wrHdma3 data) := full rfl
theorem rdHdma4 : Statement (.rdHdma4) := full rfl
theorem wrHdma4 (data : Byte) : Statement (.wrHdma4 data) := full rfl
theorem rdHdma5 : Statement (.rdHdma5) := full rfl
theorem wrHdma5 (data : Byte) : Statement (.wrHdma5 data) := full rfl
theorem rdBcps : Statement (.rdBcps) := full rfl
theorem wrBcps (data : Byte) : Statement (.wrBcps data) := full rfl
theorem rdBcpd : Statement (.rdBcpd) := full rfl
theorem wrBcpd (data : Byte) : Statement (.wrBcpd data) := full rfl
theorem rdOcps : Statement (.rdOcps) := full rfl
theorem wrOcps (data : Byte) : Statement (.wrOcps data) := full rfl
theorem rdOcpd : Statement (.rdOcpd) := full rfl
theorem wrOcpd (data : Byte) : Statement (.wrOcpd data) := full rfl
theorem evGlitchXfer : Statement (.evGlitchXfer) := full rfl
theorem evGlitchHblank : Statement (.evGlitchHblank) := full rfl
theorem evLine0Start : Statement (.evLine0Start) := full rfl
theorem evOamCont : Statement (.evOamCont) := full rfl
theorem evXferStart : Statement (.evXferStart) := full rfl
theorem evHblankPre : Statement (.evHblankPre) := full rfl
theorem evHblankStart : Statement (.evHblankStart) := full rfl
theorem evHblankEnd : Statement (.evHblankEnd) := full rfl
theorem evVblankCont : Statement (.evVblankCont) := full rfl
theorem evVblankLine : Statement (.evVblankLine) := full rfl
theorem evL153Cont : Statement (.evL153Cont) := full rfl
theorem evL153End : Statement (.evL153End) := full rfl
theorem evL153FrameEnd : Statement (.evL153FrameEnd) := full rfl
theorem reset : Statement (.reset) := full rfl
theorem oamBatch (ws : List OamWrite) : Statement (.oamBatch ws) := full rfl
theorem vramBatch (ws : List VramWrite) : Statement (.vramBatch ws) := full rfl
theorem advance (n : Nat) : Statement (.advance n) := full rfl

end Sys2Proof.Laws.RowMatch
end

