-- ==== Sys2Proof/Laws/Scheduler.lean ====
section
/-! SUPPORT. The Scheduler's loop: what holds before every event and is kept by firing one holds after
time has passed; and what an EV operation answers. -/

namespace Sys2Proof.Machine

/-- `dueBy` gives the pending event, due by the target. -/
theorem dueBy_some {target : Nat} {s : State} {e : Event} {due : Nat} (h : dueBy target s = some (e, due)) :
    s.pending = some (e, due) ∧ due ≤ target := by
  unfold dueBy at h
  split at h
  · split at h
    · rename_i hp hle; cases h; exact ⟨hp, hle⟩
    · cases h
  · cases h

/-- `dueBy` gives nothing: what is pending is due later. -/
theorem dueBy_none {target : Nat} {s : State} (h : dueBy target s = none) {e : Event} {due : Nat}
    (hp : s.pending = some (e, due)) : target < due := by
  unfold dueBy at h
  rw [hp] at h
  by_contra hc
  simp [show due ≤ target by omega] at h

/-- One round of the loop: the due event fires at its due time. -/
theorem runLoop_fire {fuel target : Nat} {s : State} {e : Event} {due : Nat}
    (h : dueBy target s = some (e, due)) :
    runLoop (fuel + 1) target s =
      runLoop fuel (max target (due + (fire e { s with now := due }).charge))
        { fire e { s with now := due } with charge := 0 } := by
  rw [runLoop, h]

/-- The end of the loop: nothing is due, and the time moves to the target. -/
theorem runLoop_idle (fuel : Nat) {target : Nat} {s : State} (h : dueBy target s = none) :
    runLoop fuel target s = { s with now := max s.now target } := by
  cases fuel with
  | zero => rfl
  | succ k => rw [runLoop, h]

/-- Packaged induction over the loop: a property that does not speak of `now` and `charge` and that
every due event's firing keeps is kept by the loop. -/
theorem runLoop_preserves {P : State → Prop}
    (hnow : ∀ s n, P s → P { s with now := n })
    (hcharge : ∀ s n, P s → P { s with charge := n })
    (hfire : ∀ s e, P s → s.pending = some (e, s.now) → P (fire e s))
    (fuel target : Nat) (s : State) (hs : P s) : P (runLoop fuel target s) := by
  induction fuel generalizing target s with
  | zero => exact hnow _ _ hs
  | succ k ih =>
    unfold runLoop
    split
    · exact hnow _ _ hs
    · rename_i e due h
      obtain ⟨hp, _⟩ := dueBy_some h
      exact ih _ _ (hcharge _ _ (hfire _ e (hnow _ _ hs) hp))

/-- The same for the passage of time. -/
theorem runUntil_preserves {P : State → Prop}
    (hnow : ∀ s n, P s → P { s with now := n })
    (hcharge : ∀ s n, P s → P { s with charge := n })
    (hfire : ∀ s e, P s → s.pending = some (e, s.now) → P (fire e s))
    (target : Nat) (s : State) (hs : P s) : P (runUntil target s) :=
  runLoop_preserves hnow hcharge hfire _ _ _ (hcharge _ _ hs)

/-- The same for the end of an operation. -/
theorem settle_preserves {P : State → Prop}
    (hnow : ∀ s n, P s → P { s with now := n })
    (hcharge : ∀ s n, P s → P { s with charge := n })
    (hfire : ∀ s e, P s → s.pending = some (e, s.now) → P (fire e s))
    (s : State) (hs : P s) : P (settle s) := by
  unfold settle
  split
  · exact hs
  · exact runUntil_preserves hnow hcharge hfire _ _ hs

/-- An operation that charged nothing has nothing to settle. -/
@[simp] theorem settle_zero {s : State} (h : s.charge = 0) : settle s = s := by simp [settle, h]

/-- An EV operation that answers a next state fired the pending event at its due time. -/
theorem fireAdmitted_next {e : Event} {s t : State} (h : fireAdmitted e s = .next t) :
    s.pending = some (e, s.now) ∧ t = settle (fire e s) := by
  unfold fireAdmitted at h
  split at h
  · rename_i hd
    simp only [Host.Outcome.next.injEq] at h
    exact ⟨by simpa [eventDue] using hd, h.symm⟩
  · cases h

/-- The pending event, due now, fires. -/
theorem fireAdmitted_due {e : Event} {s : State} (h : s.pending = some (e, s.now)) :
    fireAdmitted e s = .next (settle (fire e s)) := by
  simp [fireAdmitted, eventDue, h]

/-- With no event due by the target nothing fires: time only passes. -/
theorem runUntil_quiet {s : State} {target : Nat}
    (h : ∀ e due, s.pending = some (e, due) → target < due) :
    runUntil target s = { s with now := max s.now target, charge := 0 } := by
  have hd : dueBy target { s with charge := 0 } = none := by
    unfold dueBy
    cases hp : s.pending with
    | none => rfl
    | some p =>
      obtain ⟨e, due⟩ := p
      have := h e due hp
      simp [show ¬ due ≤ target by omega]
  simp [runUntil, runLoop, hd]

/-- A charge that reaches no event only moves the time. -/
theorem settle_quiet {s : State} (h : ∀ e due, s.pending = some (e, due) → s.now + s.charge < due) :
    settle s = { s with now := s.now + s.charge, charge := 0 } := by
  unfold settle
  split
  · rename_i hc; rw [hc, Nat.add_zero, ← hc]
  · rw [runUntil_quiet h, Nat.max_eq_right (Nat.le_add_right _ _)]

end Sys2Proof.Machine
end

