-- ==== Sys2Proof/Laws/Timeline.lean ====
section
/-! SUPPORT. What firing an event leaves: the next event and its delay, the charge, the line, the settled
STAT line, the stores' form. From these follow, once for all events, that the Scheduler's loop has fuel
enough to fire every event that falls due, and that it is the loop of rule R232. -/

namespace Sys2Proof.Machine

/-! ## The DMA opportunity -/

/-- What an HBlank entry charges (rules R515, R520). -/
def opportunityCharge (s : State) : Nat := if hdmaDue s then blockCost s else 0

theorem opportunityCharge_le (s : State) : opportunityCharge s ≤ 64 := by
  unfold opportunityCharge blockCost unitsPerByte
  split <;> (try split) <;> omega

/-- The DMA opportunity touches VRAM, the engine, the charge and the history only. -/
theorem opportunity_eq (s : State) :
    hdmaHBlankOpportunity s = { s with
      vram := (hdmaHBlankOpportunity s).vram
      busCount := (hdmaHBlankOpportunity s).busCount
      hdma := (hdmaHBlankOpportunity s).hdma
      outputs := (hdmaHBlankOpportunity s).outputs
      charge := s.charge + opportunityCharge s } := by
  unfold hdmaHBlankOpportunity opportunityCharge
  split
  · rw [hdmaBlock_eq]
  · rfl

/-! ## What firing an event leaves -/

/-- The event that follows (rules R230 to R259). -/
def nextEvent (e : Event) (s : State) : Event :=
  match e with
  | .glitchXfer => .glitchHblank
  | .glitchHblank => .line0Start
  | .line0Start => .oamCont
  | .oamCont => .xferStart
  | .xferStart => .hblankPre
  | .hblankPre => .hblankStart
  | .hblankStart => .hblankEnd
  | .hblankEnd => if s.ly + 1 = 144 then .vblankCont else .oamCont
  | .vblankCont => .vblankLine
  | .vblankLine => if s.ly + 1 = 153 then .l153Cont else .vblankCont
  | .l153Cont => .l153End
  | .l153End => .l153FrameEnd
  | .l153FrameEnd => .line0Start

/-- Its delay (rules R230 to R259). -/
def eventDelay (e : Event) (s : State) : Nat :=
  match e with
  | .glitchXfer => 172
  | .glitchHblank => 196
  | .line0Start => 4
  | .oamCont => 80
  | .xferStart => 168 + scrollPenalty s.scx
  | .hblankPre => 4
  | .hblankStart => 196 - s.penalty + lineExtra s
  | .hblankEnd => 4
  | .vblankCont => 452
  | .vblankLine => 4
  | .l153Cont => 4
  | .l153End => 4
  | .l153FrameEnd => 444

/-- What the event charges. -/
def eventCharge (e : Event) (s : State) : Nat :=
  match e with
  | .glitchHblank => opportunityCharge s
  | .hblankStart => opportunityCharge s
  | _ => 0

/-- LY after the event. -/
def eventLy (e : Event) (s : State) : Byte :=
  match e with
  | .line0Start => 0
  | .l153End => 0
  | .hblankEnd => s.ly + 1
  | .vblankLine => s.ly + 1
  | _ => s.ly

theorem eventCharge_le (e : Event) (s : State) : eventCharge e s ≤ 64 := by
  cases e <;> first | exact opportunityCharge_le s | exact Nat.zero_le _

/-- Blanking the first frame touches the frame buffer and its flag only. -/
theorem blankFirstFrame_eq (s : State) :
    blankFirstFrame s = { s with fb := (blankFirstFrame s).fb, firstFrame := false } := by
  unfold blankFirstFrame
  by_cases h : s.firstFrame = true
  · rw [if_pos h]
  · rw [if_neg h, ← (Bool.not_eq_true _).mp h]

/-- The VBlank request touches the history only. -/
theorem vblankAtEntry_eq (s : State) :
    vblankAtEntry s = { s with outputs := (vblankAtEntry s).outputs } := by
  unfold vblankAtEntry
  split <;> rfl

theorem vblankAtCont_eq (s : State) : vblankAtCont s = { s with outputs := (vblankAtCont s).outputs } := by
  unfold vblankAtCont
  split <;> rfl

/-- Firing an event schedules the next one, charges, and leaves the time. -/
theorem fire_sequence (e : Event) (s : State) :
    (fire e s).pending = some (nextEvent e s, s.now + eventDelay e s)
    ∧ (fire e s).charge = s.charge + eventCharge e s
    ∧ (fire e s).now = s.now
    ∧ (fire e s).ly = eventLy e s := by
  cases e <;> simp only [fire, handle]
  case glitchXfer =>
    simp [handleGlitchXfer, nextEvent, eventDelay, eventCharge, eventLy, lockSet_eq, schedule]
  case glitchHblank =>
    simp only [handleGlitchHblank, schedule, setSrc, lockSet_eq, recompute_eq]
    rw [opportunity_eq]
    exact ⟨rfl, rfl, rfl, rfl⟩
  case line0Start =>
    simp [handleLine0Start, lineStart, nextEvent, eventDelay, eventCharge, eventLy, lockSet_eq, schedule]
  case oamCont =>
    simp [handleOamCont, nextEvent, eventDelay, eventCharge, eventLy, lockSet_eq, schedule]
  case xferStart =>
    simp [handleXferStart, nextEvent, eventDelay, eventCharge, eventLy, lockSet_eq, schedule]
  case hblankPre => simp [handleHblankPre, nextEvent, eventDelay, eventCharge, eventLy, schedule]
  case hblankStart =>
    simp only [handleHblankStart, schedule, composeLine, lockSet_eq]
    rw [opportunity_eq]
    exact ⟨rfl, rfl, rfl, rfl⟩
  case hblankEnd =>
    simp only [handleHblankEnd, nextEvent, eventDelay, eventCharge, eventLy]
    by_cases h : s.ly + 1 = 144
    · rw [if_pos h, if_pos h]
      simp only [vblankEntry, schedule, emitFrame, emit]
      rw [blankFirstFrame_eq, vblankAtEntry_eq]
      simp
    · rw [if_neg h, if_neg h]
      simp [lineStart, schedule, lockSet_eq]
  case vblankCont =>
    simp only [handleVblankCont, schedule, setSrc, recompute_eq]
    rw [vblankAtCont_eq]
    exact ⟨rfl, rfl, rfl, rfl⟩
  case vblankLine =>
    simp only [handleVblankLine, nextEvent, eventDelay, eventCharge, eventLy]
    by_cases h : s.ly + 1 = 153
    · rw [if_pos h, if_pos h]
      simp [line153Start, schedule]
    · rw [if_neg h, if_neg h]
      simp [schedule]
  case l153Cont => simp [handleL153Cont, nextEvent, eventDelay, eventCharge, eventLy, schedule]
  case l153End => simp [handleL153End, nextEvent, eventDelay, eventCharge, eventLy, schedule]
  case l153FrameEnd => simp [handleL153FrameEnd, nextEvent, eventDelay, eventCharge, eventLy, schedule]

/-- What an event never touches: the registers the CPU writes, OAM, the colour RAM, the configuration,
the world outside, the last result. -/
theorem fire_frame (e : Event) (s : State) :
    fire e s = { s with
      mode := (fire e s).mode
      phase := (fire e s).phase
      pending := (fire e s).pending
      src := (fire e s).src
      statLine := (fire e s).statLine
      ly := (fire e s).ly
      cmp := (fire e s).cmp
      penalty := (fire e s).penalty
      windowLine := (fire e s).windowLine
      firstFrame := (fire e s).firstFrame
      locks := (fire e s).locks
      vram := (fire e s).vram
      hdma := (fire e s).hdma
      fb := (fire e s).fb
      outputs := (fire e s).outputs
      busCount := (fire e s).busCount
      charge := (fire e s).charge } := by
  cases e <;> simp only [fire, handle]
  case glitchXfer => simp only [handleGlitchXfer, lockSet_eq, schedule]
  case glitchHblank =>
    simp only [handleGlitchHblank, schedule, setSrc, lockSet_eq, recompute_eq]
    rw [opportunity_eq]
  case line0Start => simp only [handleLine0Start, lineStart, lockSet_eq, schedule, setSrc, setLY, emit, recompute_eq]
  case oamCont => simp only [handleOamCont, lockSet_eq, schedule, setCmp, recompute_eq]
  case xferStart => simp only [handleXferStart, lockSet_eq, schedule, setSrc, recompute_eq]
  case hblankPre => simp only [handleHblankPre, schedule, setSrc, recompute_eq]
  case hblankStart =>
    simp only [handleHblankStart, schedule, composeLine, lockSet_eq]
    rw [opportunity_eq]
  case hblankEnd =>
    simp only [handleHblankEnd]
    split
    · simp only [vblankEntry, schedule, emitFrame, emit, setSrc, setLY, recompute_eq]
      rw [blankFirstFrame_eq, vblankAtEntry_eq]
    · simp only [lineStart, schedule, lockSet_eq, setSrc, setLY, emit, recompute_eq]
  case vblankCont =>
    simp only [handleVblankCont, schedule, setSrc, recompute_eq]
    rw [vblankAtCont_eq]
  case vblankLine =>
    simp only [handleVblankLine]
    split <;> simp only [line153Start, schedule, setCmp, setLY, emit, recompute_eq]
  case l153Cont => simp only [handleL153Cont, schedule, setCmp, recompute_eq]
  case l153End => simp only [handleL153End, schedule, setCmp, storeLY, setLY, emit, recompute_eq]
  case l153FrameEnd => simp only [handleL153FrameEnd, schedule, setCmp, recompute_eq]

/-- The DMA opportunity keeps VRAM canonical. -/
theorem opportunity_wf {s : State} (h : Memory.wf 0x4000 s.vram = true) :
    Memory.wf 0x4000 (hdmaHBlankOpportunity s).vram = true := by
  unfold hdmaHBlankOpportunity
  split
  · rw [hdmaBlock_eq]
    dsimp only
    exact copyBlock_wf h
  · exact h

/-- Firing an event keeps VRAM canonical. -/
theorem fire_vram_wf (e : Event) {s : State} (h : Memory.wf 0x4000 s.vram = true) :
    Memory.wf 0x4000 (fire e s).vram = true := by
  cases e <;> simp only [fire, handle]
  case glitchHblank =>
    simp only [handleGlitchHblank, schedule]
    apply opportunity_wf
    simpa using h
  case hblankStart =>
    simp only [handleHblankStart, schedule]
    apply opportunity_wf
    simpa [composeLine] using h
  case hblankEnd =>
    simp only [handleHblankEnd]
    split
    · simp only [vblankEntry, schedule, emitFrame, emit]
      rw [blankFirstFrame_eq, vblankAtEntry_eq]
      simpa using h
    · simpa [lineStart] using h
  case vblankCont =>
    simp only [handleVblankCont, schedule]
    rw [vblankAtCont_eq]
    simpa using h
  case vblankLine =>
    simp only [handleVblankLine]
    split <;> simpa [line153Start] using h
  all_goals
    simpa [handleGlitchXfer, handleLine0Start, lineStart, handleOamCont, handleXferStart, handleHblankPre,
      handleL153Cont, handleL153End, handleL153FrameEnd] using h

/-! ## The loop's fuel -/

/-- With `eventWeight e + (target + 1 - due) / 32` units of fuel the loop fires everything that falls
due: at most that many events fall due, an HBlank's charge counted (assumption 7). -/
def eventWeight (e : Event) : Nat :=
  match e with
  | .glitchXfer => 1
  | .glitchHblank => 1
  | .line0Start => 2
  | .oamCont => 1
  | .xferStart => 2
  | .hblankPre => 6
  | .hblankStart => 5
  | .hblankEnd => 2
  | .vblankCont => 1
  | .vblankLine => 4
  | .l153Cont => 3
  | .l153End => 2
  | .l153FrameEnd => 1

theorem eventWeight_pos (e : Event) : 1 ≤ eventWeight e := by cases e <;> decide

theorem eventWeight_le (e : Event) : eventWeight e ≤ 6 := by cases e <;> decide

/-- Firing an event uses one unit of fuel. -/
theorem eventWeight_next (e : Event) (s : State) (target due : Nat) (h : due ≤ target)
    (h2 : due + eventDelay e s ≤ max target (due + eventCharge e s)) :
    (max target (due + eventCharge e s) + 1 - (due + eventDelay e s)) / 32 + eventWeight (nextEvent e s) + 1
      ≤ (target + 1 - due) / 32 + eventWeight e := by
  have hc := opportunityCharge_le s
  cases e
  case hblankEnd =>
    by_cases h : s.ly + 1 = 144 <;>
      simp only [eventDelay, eventCharge, eventWeight, nextEvent, h, if_true, if_false] at h2 ⊢ <;> omega
  case vblankLine =>
    by_cases h : s.ly + 1 = 153 <;>
      simp only [eventDelay, eventCharge, eventWeight, nextEvent, h, if_true, if_false] at h2 ⊢ <;> omega
  all_goals
    simp only [eventDelay, eventCharge, eventWeight, nextEvent] at h2 ⊢
    omega

/-- Fuel enough for the loop to fire everything due by the target. -/
def Fuelled (fuel target : Nat) (s : State) : Prop :=
  ∀ e due, dueBy target s = some (e, due) → (target + 1 - due) / 32 + eventWeight e ≤ fuel

theorem fuelled_runUntil (target : Nat) (s : State) : Fuelled (target + 8) target s := by
  intro e due _
  have := eventWeight_le e
  omega

/-- The rest of the loop has fuel enough once the due event has fired. -/
theorem fuelled_fire {fuel target : Nat} {s : State} {e : Event} {due : Nat} (hc : s.charge = 0)
    (hd : dueBy target s = some (e, due)) (hf : Fuelled (fuel + 1) target s) :
    Fuelled fuel (max target (due + (fire e { s with now := due }).charge))
      { fire e { s with now := due } with charge := 0 } := by
  intro e' due' hd'
  obtain ⟨hp', hle'⟩ := dueBy_some hd'
  obtain ⟨f1, f2, -, -⟩ := fire_sequence e { s with now := due }
  have f1 : (fire e { s with now := due }).pending
      = some (nextEvent e { s with now := due }, due + eventDelay e { s with now := due }) := f1
  have f2 : (fire e { s with now := due }).charge = eventCharge e { s with now := due } := by
    rw [f2]
    show s.charge + _ = _
    omega
  rw [f2] at hle' ⊢
  obtain ⟨rfl, rfl⟩ := Prod.mk.inj (Option.some.inj (f1.symm.trans hp'))
  have := eventWeight_next e { s with now := due } target due (dueBy_some hd).2 hle'
  have := hf e due hd
  omega

/-- A due event leaves no round without fuel. -/
theorem fuelled_pos {fuel target : Nat} {s : State} {p : Event × Nat} (hd : dueBy target s = some p)
    (hf : Fuelled fuel target s) : ∃ k, fuel = k + 1 := by
  have := hf p.1 p.2 hd
  have := eventWeight_pos p.1
  exact ⟨fuel - 1, by omega⟩

/-- What the loop leaves, given fuel enough: the target is reached, every event due by then has fired,
nothing is left to charge. -/
theorem runLoop_done (fuel target : Nat) (s : State) (hc : s.charge = 0) (hn : s.now ≤ target)
    (hf : Fuelled fuel target s) :
    target ≤ (runLoop fuel target s).now
    ∧ (runLoop fuel target s).charge = 0
    ∧ ∀ e due, (runLoop fuel target s).pending = some (e, due) → (runLoop fuel target s).now < due := by
  induction fuel generalizing target s with
  | zero =>
    cases hd : dueBy target s with
    | some p => obtain ⟨k, hk⟩ := fuelled_pos hd hf; omega
    | none =>
      rw [runLoop_idle 0 hd]
      exact ⟨Nat.le_max_right _ _, hc, fun e due hp => by
        rw [Nat.max_eq_right hn]
        exact dueBy_none hd hp⟩
  | succ k ih =>
    cases hd : dueBy target s with
    | none =>
      rw [runLoop_idle (k + 1) hd]
      exact ⟨Nat.le_max_right _ _, hc, fun e due hp => by
        rw [Nat.max_eq_right hn]
        exact dueBy_none hd hp⟩
    | some p =>
      obtain ⟨e, due⟩ := p
      have hle := (dueBy_some hd).2
      have hnow : (fire e { s with now := due }).now = due := (fire_sequence e { s with now := due }).2.2.1
      rw [runLoop_fire hd]
      have h := ih _ { fire e { s with now := due } with charge := 0 } rfl
        (show (fire e { s with now := due }).now ≤ _ by omega) (fuelled_fire hc hd hf)
      exact ⟨le_trans (Nat.le_max_left _ _) h.1, h.2⟩

/-- What the passage of time leaves: every event due by then has fired. -/
theorem runUntil_done (target : Nat) (s : State) (hn : s.now ≤ target) :
    target ≤ (runUntil target s).now
    ∧ (runUntil target s).charge = 0
    ∧ ∀ e due, (runUntil target s).pending = some (e, due) → (runUntil target s).now < due :=
  runLoop_done _ _ { s with charge := 0 } rfl hn (fuelled_runUntil target _)

/-- Fuel beyond enough changes nothing, nor does the time at which the loop begins. -/
theorem runLoop_fuel (fuel : Nat) : ∀ (fuel' target n : Nat) (s : State), s.charge = 0 → s.now ≤ target →
    n ≤ target → Fuelled fuel target s → Fuelled fuel' target s →
    runLoop fuel' target { s with now := n } = runLoop fuel target s := by
  induction fuel with
  | zero =>
    intro fuel' target n s hc hn hm hf hf'
    cases hd : dueBy target s with
    | some p => obtain ⟨k, hk⟩ := fuelled_pos hd hf; omega
    | none =>
      rw [runLoop_idle 0 hd, runLoop_idle fuel' (show dueBy target { s with now := n } = none from hd),
        Nat.max_eq_right hn, Nat.max_eq_right hm]
  | succ k ih =>
    intro fuel' target n s hc hn hm hf hf'
    cases hd : dueBy target s with
    | none =>
      rw [runLoop_idle (k + 1) hd, runLoop_idle fuel' (show dueBy target { s with now := n } = none from hd),
        Nat.max_eq_right hn, Nat.max_eq_right hm]
    | some p =>
      obtain ⟨e, due⟩ := p
      obtain ⟨k', rfl⟩ := fuelled_pos hd hf'
      rw [runLoop_fire hd, runLoop_fire (show dueBy target { s with now := n } = some (e, due) from hd)]
      have hnow : (fire e { s with now := due }).now = due := (fire_sequence e { s with now := due }).2.2.1
      have hle := (dueBy_some hd).2
      refine ih k' _ (fire e { s with now := due }).now _ rfl ?_ ?_ (fuelled_fire hc hd hf)
        (fuelled_fire hc hd hf')
      · show (fire e { s with now := due }).now ≤ _
        omega
      · omega

/-- Running to one target and from there to another is running to the later of the two. -/
theorem runLoop_split (fuel : Nat) : ∀ (fuel' fuel'' first second : Nat) (s : State), s.charge = 0 →
    s.now ≤ first → Fuelled fuel first s → Fuelled fuel' (max first second) s →
    (∀ w, w = runLoop fuel first s → Fuelled fuel'' (max w.now second) w) →
    runLoop fuel'' (max (runLoop fuel first s).now second) (runLoop fuel first s)
      = runLoop fuel' (max first second) s := by
  induction fuel with
  | zero =>
    intro fuel' fuel'' first second s hc hn hf hf' hw
    cases hd : dueBy first s with
    | some p => obtain ⟨k, hk⟩ := fuelled_pos hd hf; omega
    | none =>
      have hw := hw _ rfl
      rw [runLoop_idle 0 hd] at hw ⊢
      simp only [Nat.max_eq_right hn] at hw ⊢
      exact runLoop_fuel fuel' fuel'' _ first s hc (by omega) (by omega) hf' hw
  | succ k ih =>
    intro fuel' fuel'' first second s hc hn hf hf' hw
    cases hd : dueBy first s with
    | none =>
      have hw := hw _ rfl
      rw [runLoop_idle (k + 1) hd] at hw ⊢
      simp only [Nat.max_eq_right hn] at hw ⊢
      exact runLoop_fuel fuel' fuel'' _ first s hc (by omega) (by omega) hf' hw
    | some p =>
      obtain ⟨e, due⟩ := p
      obtain ⟨hp, hle⟩ := dueBy_some hd
      have hd' : dueBy (max first second) s = some (e, due) := by
        unfold dueBy
        rw [hp]
        simp [hle]
      obtain ⟨k', rfl⟩ := fuelled_pos hd' hf'
      have hnow : (fire e { s with now := due }).now = due := (fire_sequence e { s with now := due }).2.2.1
      rw [runLoop_fire hd'] 
      rw [runLoop_fire hd] at hw ⊢
      have hf2 := fuelled_fire hc hd' hf'
      rw [Nat.max_right_comm] at hf2 ⊢
      exact ih k' fuel'' _ second _ rfl
        (by show (fire e { s with now := due }).now ≤ _; omega) (fuelled_fire hc hd hf) hf2 hw

/-- Rule R232, one round of `runUntil`: the due event fires at its due time, what its handler charged
passes, and the loop goes on from there (assumption 7). -/
theorem runUntil_fire {target : Nat} {s : State} {e : Event} {due : Nat} (hc : s.charge = 0)
    (hp : s.pending = some (e, due)) (hle : due ≤ target) :
    runUntil target s =
      runUntil (max (runUntil (due + (fire e { s with now := due }).charge)
          { fire e { s with now := due } with charge := 0 }).now target)
        (runUntil (due + (fire e { s with now := due }).charge)
          { fire e { s with now := due } with charge := 0 }) := by
  have hd : dueBy target s = some (e, due) := by
    unfold dueBy
    rw [hp]
    simp [hle]
  have hs : ({ s with charge := 0 } : State) = s := by rw [← hc]
  have hnow : (fire e { s with now := due }).now = due := (fire_sequence e { s with now := due }).2.2.1
  have hf := fuelled_fire (fuel := target + 7) hc hd (fuelled_runUntil target s)
  conv_lhs => rw [runUntil, hs, show target + 8 = target + 7 + 1 from rfl, runLoop_fire hd]
  generalize fire e { s with now := due } = u at hf hnow ⊢
  have hle' : u.now ≤ due + u.charge := by omega
  have h0 : (runUntil (due + u.charge) { u with charge := 0 }).charge = 0 :=
    (runUntil_done _ _ hle').2.1
  rw [show max target (due + u.charge) = max (due + u.charge) target from Nat.max_comm _ _] at hf ⊢
  rw [← runLoop_split (due + u.charge + 8) _ (max (runUntil (due + u.charge) { u with charge := 0 }).now target + 8)
    _ _ { u with charge := 0 } rfl hle' (fuelled_runUntil _ _) hf
    (by rintro w rfl; exact fuelled_runUntil _ _)]
  rw [show runLoop (due + u.charge + 8) (due + u.charge) { u with charge := 0 }
    = runUntil (due + u.charge) { u with charge := 0 } from rfl]
  generalize runUntil (due + u.charge) { u with charge := 0 } = w at h0 ⊢
  show runLoop _ _ _ = runLoop _ _ { w with charge := 0 }
  rw [← h0]

end Sys2Proof.Machine
end

