-- ==== Sys2Proof/Laws/Steps.lean ====
section
/-! SUPPORT. What running an operation can do, packaged once: an operation that lets time pass keeps
whatever its own effect and the firing of events keep. -/

namespace Sys2Proof.Machine

/-- Every EV operation is `fireAdmitted` of its event. -/
theorem exec_event (e : Event) (s : State) : exec e.instr s = fireAdmitted e s := by cases e <;> rfl

/-- An operation's charge passes as an ADVANCE of that many units (rule R117). -/
theorem settle_charged {s : State} {n : Nat} (h : s.charge = n) (hn : n ≠ 0) :
    Host.Outcome.next (settle s) = exec (.advance n) { s with charge := 0 } := by
  subst h
  unfold settle
  rw [if_neg hn]
  rfl

/-- With nothing due by its end, an ADVANCE moves the time alone. -/
theorem advance_quiet {s : State} {n : Nat} (h : s.charge = 0)
    (hq : ∀ e due, s.pending = some (e, due) → s.now + n < due) :
    exec (.advance n) s = .next { s with now := s.now + n } := by
  show Host.Outcome.next (runUntil _ _) = _
  rw [runUntil_quiet hq, Nat.max_eq_right (Nat.le_add_right _ _), ← h]

/-- An OAM batch touches OAM only. -/
theorem oamBatch_frame (ws : List OamWrite) (s : State) :
    ws.foldl oamBatchWrite s = { s with oam := (ws.foldl oamBatchWrite s).oam } := by
  induction ws generalizing s with
  | nil => rfl
  | cons w rest ih =>
    rw [List.foldl_cons, ih]
    unfold oamBatchWrite
    split <;> rfl

/-- A VRAM batch touches VRAM only. -/
theorem vramBatch_frame (ws : List VramWrite) (s : State) :
    ws.foldl vramBatchWrite s = { s with vram := (ws.foldl vramBatchWrite s).vram } := by
  induction ws generalizing s with
  | nil => rfl
  | cons w rest ih =>
    rw [List.foldl_cons, ih]
    rfl

/-- A property that firing events keeps, that the write to HDMA5 keeps, and that every operation keeps
which lets no time pass, is kept by every operation. -/
theorem exec_preserves {P : State → Prop}
    (hfire : ∀ s e, P s → s.pending = some (e, s.now) → P (fire e s))
    (hnow : ∀ s n, P s → P { s with now := n })
    (hcharge : ∀ s n, P s → P { s with charge := n })
    {i : Instr} {s t : State} (hs : P s) (he : exec i s = .next t)
    (hhdma : ∀ v, P (hdma5Write v s))
    (hrest : (∀ e : Event, i ≠ e.instr) → (∀ n, i ≠ .advance n) → (∀ v, i ≠ .wrHdma5 v) → P t) : P t := by
  by_cases h1 : ∃ e : Event, i = e.instr
  · obtain ⟨e, rfl⟩ := h1
    rw [exec_event] at he
    obtain ⟨hp, rfl⟩ := fireAdmitted_next he
    exact settle_preserves hnow hcharge hfire _ (hfire s e hs hp)
  · by_cases h2 : ∃ n, i = .advance n
    · obtain ⟨n, rfl⟩ := h2
      cases he
      exact runUntil_preserves hnow hcharge hfire _ _ hs
    · by_cases h3 : ∃ v, i = .wrHdma5 v
      · obtain ⟨v, rfl⟩ := h3
        cases he
        exact settle_preserves hnow hcharge hfire _ (hhdma v)
      · exact hrest (fun e h => h1 ⟨e, h⟩) (fun n h => h2 ⟨n, h⟩) (fun v h => h3 ⟨v, h⟩)

end Sys2Proof.Machine
end

