-- ==== Sys2Proof/Machine/Asm.lean ====
section
/-! DEFINITION. The assembler text of an operation and the expansions of the pseudo-operations
(spec/30_encoding.md rules R151, R152). Nothing of the machine depends on this file. -/

namespace Sys2Proof.Machine

/-- The name a register access writes as its target (rule R151). -/
def asmRd (target : String) : String := "rd " ++ target

/-- A write's text. -/
def asmWr (target : String) (v : Byte) : String := "wr " ++ target ++ ", " ++ toString v.toNat

/-- A 16-bit address, in decimal. -/
def asmAddr (a : Nat) : String := toString a

/-- One OAM batch entry, `(off, v)`. -/
def asmOamWrite (w : OamWrite) : String :=
  "(" ++ toString w.off ++ ", " ++ toString w.val.toNat ++ ")"

/-- One VRAM batch entry, `(off, bank, v)`. -/
def asmVramWrite (w : VramWrite) : String :=
  "(" ++ toString w.off ++ ", " ++ toString w.bank ++ ", " ++ toString w.val.toNat ++ ")"

/-- An operation as a line of assembler text (rule R151). -/
def asmText (i : Instr) : String :=
  match i with
  | .rdVram off => asmRd (asmAddr (0x8000 + off.toNat))
  | .wrVram off v => asmWr (asmAddr (0x8000 + off.toNat)) v
  | .rdOam off => asmRd (asmAddr (0xFE00 + off.val))
  | .wrOam off v => asmWr (asmAddr (0xFE00 + off.val)) v
  | .rdLcdc => asmRd "LCDC"
  | .wrLcdc v => asmWr "LCDC" v
  | .rdStat => asmRd "STAT"
  | .wrStat v => asmWr "STAT" v
  | .wrStatDmg v => asmWr "STAT" v
  | .rdScy => asmRd "SCY"
  | .wrScy v => asmWr "SCY" v
  | .rdScx => asmRd "SCX"
  | .wrScx v => asmWr "SCX" v
  | .rdLy => asmRd "LY"
  | .wrLy v => asmWr "LY" v
  | .rdLyc => asmRd "LYC"
  | .wrLyc v => asmWr "LYC" v
  | .rdBgp => asmRd "BGP"
  | .wrBgp v => asmWr "BGP" v
  | .rdObp0 => asmRd "OBP0"
  | .wrObp0 v => asmWr "OBP0" v
  | .rdObp1 => asmRd "OBP1"
  | .wrObp1 v => asmWr "OBP1" v
  | .rdWy => asmRd "WY"
  | .wrWy v => asmWr "WY" v
  | .rdWx => asmRd "WX"
  | .wrWx v => asmWr "WX" v
  | .rdHdma1 => asmRd "HDMA1"
  | .wrHdma1 v => asmWr "HDMA1" v
  | .rdHdma2 => asmRd "HDMA2"
  | .wrHdma2 v => asmWr "HDMA2" v
  | .rdHdma3 => asmRd "HDMA3"
  | .wrHdma3 v => asmWr "HDMA3" v
  | .rdHdma4 => asmRd "HDMA4"
  | .wrHdma4 v => asmWr "HDMA4" v
  | .rdHdma5 => asmRd "HDMA5"
  | .wrHdma5 v => asmWr "HDMA5" v
  | .rdBcps => asmRd "BCPS"
  | .wrBcps v => asmWr "BCPS" v
  | .rdBcpd => asmRd "BCPD"
  | .wrBcpd v => asmWr "BCPD" v
  | .rdOcps => asmRd "OCPS"
  | .wrOcps v => asmWr "OCPS" v
  | .rdOcpd => asmRd "OCPD"
  | .wrOcpd v => asmWr "OCPD" v
  | .evGlitchXfer => "ev EV_GLITCH_XFER"
  | .evGlitchHblank => "ev EV_GLITCH_HBLANK"
  | .evLine0Start => "ev EV_LINE0_START"
  | .evOamCont => "ev EV_OAM_CONT"
  | .evXferStart => "ev EV_XFER_START"
  | .evHblankPre => "ev EV_HBLANK_PRE"
  | .evHblankStart => "ev EV_HBLANK_START"
  | .evHblankEnd => "ev EV_HBLANK_END"
  | .evVblankCont => "ev EV_VBLANK_CONT"
  | .evVblankLine => "ev EV_VBLANK_LINE"
  | .evL153Cont => "ev EV_L153_CONT"
  | .evL153End => "ev EV_L153_END"
  | .evL153FrameEnd => "ev EV_L153_FRAME_END"
  | .reset => "reset"
  | .oamBatch ws => "oamb [" ++ String.intercalate ", " (ws.map asmOamWrite) ++ "]"
  | .vramBatch ws => "vramb [" ++ String.intercalate ", " (ws.map asmVramWrite) ++ "]"
  | .advance n => "wait " ++ toString n

/-- `hdma src, dst, n, m` with 1 ≤ n ≤ 128 (rule R152). -/
def pseudoHdma (src dst : Addr) (n : Nat) (m : Bool) : List Instr :=
  [.wrHdma1 (src.extractLsb' 8 8), .wrHdma2 (src.extractLsb' 0 8), .wrHdma3 (dst.extractLsb' 8 8),
   .wrHdma4 (dst.extractLsb' 0 8), .wrHdma5 (BitVec.ofBool m ++ BitVec.ofNat 7 (n - 1))]

/-- `bgpal i, b0, …, bk` (rule R152). -/
def pseudoBgpal (i : Byte) (bs : List Byte) : List Instr := .wrBcps i :: bs.map .wrBcpd

/-- `objpal i, b0, …` (rule R152). -/
def pseudoObjpal (i : Byte) (bs : List Byte) : List Instr := .wrOcps i :: bs.map .wrOcpd

/-- `sprite k, y, x, t, a` (rule R152). -/
def pseudoSprite (k : Fin 40) (y x t a : Byte) : List Instr :=
  [.wrOam ⟨4 * k.val, by omega⟩ y, .wrOam ⟨4 * k.val + 1, by omega⟩ x,
   .wrOam ⟨4 * k.val + 2, by omega⟩ t, .wrOam ⟨4 * k.val + 3, by omega⟩ a]

/-- `lcdon v` (rule R152). -/
def pseudoLcdon (v : Byte) : List Instr := [.wrLcdc (v ||| 0x80#8)]

/-- `lcdoff v` (rule R152). -/
def pseudoLcdoff (v : Byte) : List Instr := [.wrLcdc (v &&& 0x7F#8)]

end Sys2Proof.Machine
end

