-- ==== Sys2Proof/Tests/Slice0.lean ====
section
/-! SUPPORT. The model's own tests. Expected results come from spec/95_test_vectors.md (the vector is named
in the comment) or are worked out from the rule named; words are written out from spec/30_encoding.md.
The last part gives, for every obligation with hypotheses, a state and operands that meet them. -/

namespace Sys2Proof.Tests

open Sys2Proof.Machine

/-! ## WellFormed refuses ill-formed terms -/

/-- Offset 160 is outside OAM (R146). -/
theorem test_wellFormed_oam_offset : (Instr.oamBatch [⟨159, 1⟩, ⟨160, 1⟩]).wellFormed true = false := by decide

/-- Offset 0x2000 is outside a VRAM bank (R146). -/
theorem test_wellFormed_vram_offset : (Instr.vramBatch [⟨0x2000, 0, 1⟩]).wellFormed true = false := by decide

/-- There is no bank 2 (R146). -/
theorem test_wellFormed_vram_bank : (Instr.vramBatch [⟨0, 2, 1⟩]).wellFormed true = false := by decide

/-- Each hardware has its own WR.STAT (R215, R216). -/
theorem test_wellFormed_stat_variant :
    (Instr.wrStat 0).wellFormed false = false ∧ (Instr.wrStatDmg 0).wellFormed true = false := by decide

/-- Batches in range are well formed. -/
theorem test_wellFormed_accepts :
    (Instr.oamBatch [⟨0, 1⟩, ⟨159, 2⟩]).wellFormed false = true
    ∧ (Instr.vramBatch [⟨0x1FFF, 1, 3⟩, ⟨0, 0, 4⟩]).wellFormed false = true := by decide

/-! ## Decoding words written out from the spec -/

/-- A word without operand decodes to this. -/
def reads (colorHw : Bool) (w : BitVec 28) (i : Instr) : Bool :=
  match decode colorHw ⟨w, .none⟩ with
  | .ok j => decide (i = j)
  | .error _ => false

/-- A word with its operand is refused for this reason. -/
def refuses (w : BitVec 28) (op : Operand) (why : DecodeError) : Bool :=
  match decode true ⟨w, op⟩ with
  | .ok _ => false
  | .error e => decide (e = why)

/-- VRAM and OAM accesses (T-ENC-4, T-ENC-5, T-ENC-6). -/
theorem test_decode_stores :
    reads true 0x0009FFF (.rdVram 0x1FFF) = true ∧ reads true 0x5A18000 (.wrVram 0 0x5A) = true
    ∧ reads true 0x000FE9F (.rdOam 159) = true ∧ reads true 0xA51FE03 (.wrOam 3 0xA5) = true := by decide

/-- The LCD registers (T-ENC-1, T-ENC-2, T-ENC-3, T-ENC-16, R147). -/
theorem test_decode_lcd :
    reads true 0x000FF40 .rdLcdc = true ∧ reads true 0x911FF40 (.wrLcdc 0x91) = true
    ∧ reads true 0x000FF41 .rdStat = true ∧ reads true 0x0F1FF41 (.wrStat 0x0F) = true
    ∧ reads false 0x401FF41 (.wrStatDmg 0x40) = true
    ∧ reads true 0xAB0FF44 .rdLy = true ∧ reads true 0x771FF44 (.wrLy 0x77) = true
    ∧ reads true 0x000FF45 .rdLyc = true ∧ reads true 0x991FF45 (.wrLyc 0x99) = true := by decide

/-- The scroll and window registers (R147). -/
theorem test_decode_scroll :
    reads true 0x000FF42 .rdScy = true ∧ reads true 0x121FF42 (.wrScy 0x12) = true
    ∧ reads true 0x000FF43 .rdScx = true ∧ reads true 0x031FF43 (.wrScx 0x03) = true
    ∧ reads true 0x000FF4A .rdWy = true ∧ reads true 0x901FF4A (.wrWy 0x90) = true
    ∧ reads true 0x000FF4B .rdWx = true ∧ reads true 0xA71FF4B (.wrWx 0xA7) = true := by decide

/-- The palette registers (R147, programs P3 and P4). -/
theorem test_decode_palettes :
    reads true 0x000FF47 .rdBgp = true ∧ reads true 0xE41FF47 (.wrBgp 0xE4) = true
    ∧ reads true 0x000FF48 .rdObp0 = true ∧ reads true 0xE41FF48 (.wrObp0 0xE4) = true
    ∧ reads true 0x000FF49 .rdObp1 = true ∧ reads true 0x901FF49 (.wrObp1 0x90) = true
    ∧ reads true 0x000FF68 .rdBcps = true ∧ reads true 0x881FF68 (.wrBcps 0x88) = true
    ∧ reads true 0x000FF69 .rdBcpd = true ∧ reads true 0xFF1FF69 (.wrBcpd 0xFF) = true
    ∧ reads true 0x000FF6A .rdOcps = true ∧ reads true 0x3F1FF6A (.wrOcps 0x3F) = true
    ∧ reads true 0x000FF6B .rdOcpd = true ∧ reads true 0x7F1FF6B (.wrOcpd 0x7F) = true := by decide

/-- The DMA registers (R147, programs P2 and P5). -/
theorem test_decode_hdma :
    reads true 0x000FF51 .rdHdma1 = true ∧ reads true 0x801FF51 (.wrHdma1 0x80) = true
    ∧ reads true 0x000FF52 .rdHdma2 = true ∧ reads true 0x001FF52 (.wrHdma2 0x00) = true
    ∧ reads true 0x000FF53 .rdHdma3 = true ∧ reads true 0x081FF53 (.wrHdma3 0x08) = true
    ∧ reads true 0x000FF54 .rdHdma4 = true ∧ reads true 0x101FF54 (.wrHdma4 0x10) = true
    ∧ reads true 0x000FF55 .rdHdma5 = true ∧ reads true 0x821FF55 (.wrHdma5 0x82) = true := by decide

/-- The events (R143, T-ENC-9). -/
theorem test_decode_events :
    reads true 0x0020001 .evGlitchXfer = true ∧ reads true 0x0020002 .evGlitchHblank = true
    ∧ reads true 0x0020003 .evLine0Start = true ∧ reads true 0x0020004 .evOamCont = true
    ∧ reads true 0x0020005 .evXferStart = true ∧ reads true 0x0020006 .evHblankPre = true
    ∧ reads true 0x0020007 .evHblankStart = true ∧ reads true 0x0020008 .evHblankEnd = true
    ∧ reads true 0x0020009 .evVblankCont = true ∧ reads true 0x002000A .evVblankLine = true
    ∧ reads true 0x002000B .evL153Cont = true ∧ reads true 0x002000C .evL153End = true
    ∧ reads true 0x002000D .evL153FrameEnd = true := by decide

/-- The control operations with their operands (R144, R146, T-ENC-12). -/
theorem test_decode_control :
    decode true ⟨0x0030000#28, .none⟩ = .ok .reset
    ∧ decode true ⟨0x0030001#28, .oam [⟨0, 0x33⟩]⟩ = .ok (.oamBatch [⟨0, 0x33⟩])
    ∧ decode true ⟨0x0030002#28, .vram [⟨0x1800, 1, 0x20⟩]⟩ = .ok (.vramBatch [⟨0x1800, 1, 0x20⟩])
    ∧ decode true ⟨0x0030003#28, .time 76⟩ = .ok (.advance 76) := ⟨rfl, rfl, rfl, rfl⟩

/-- Reserved words (T-ENC-7, T-ENC-8, T-ENC-10, T-ENC-11, T-ENC-13, T-ENC-14) and the edges of the VRAM
and register windows. -/
theorem test_decode_reserved :
    refuses 0x000FEA0 .none .reservedAddress = true ∧ refuses 0x000FF46 .none .reservedAddress = true
    ∧ refuses 0x0007FFF .none .reservedAddress = true ∧ refuses 0x000A000 .none .reservedAddress = true
    ∧ refuses 0x001FF4C .none .reservedAddress = true
    ∧ refuses 0x002000E .none .reservedEvent = true ∧ refuses 0x0021003 .none .reservedEvent = true
    ∧ refuses 0x0020000 .none .reservedEvent = true
    ∧ refuses 0x0030004 .none .reservedControl = true ∧ refuses 0x0040000 .none .reservedClass = true := by
  decide

/-- Operands: a batch entry out of range (T-ENC-15), a missing operand, a stray one. -/
theorem test_decode_operands :
    refuses 0x0030001 (.oam [⟨0, 1⟩, ⟨160, 2⟩]) .batchEntryOutOfRange = true
    ∧ refuses 0x0030003 .none .operandShape = true ∧ refuses 0x000FF40 (.time 1) .operandShape = true := by
  decide

/-! ## One step, on small states -/

/-- The operation answers a next state with this property. -/
def gives (o : Result) (p : State → Bool) : Bool :=
  match o with
  | .next s => p s
  | .fault _ => false
  | .refused _ => false

/-- The operation answers a next state in which an RD returned this byte. -/
def returns (o : Result) (v : Byte) : Bool := gives o fun s => decide (s.result = some v)

/-- "DMG" of spec/95_test_vectors.md, after reset. -/
def dmg : State := State.powerOn (Config.default false false)

/-- "CGB", after reset. -/
def cgb : State := State.powerOn (Config.default true true)

/-- "CGB-compat", after reset. -/
def compat : State := State.powerOn (Config.default true false)

/-- LCD on with 0x91, in this phase and mode, an event pending and due now. -/
def due (s : State) (ph : Phase) (m : Mode) (e : Event) : State :=
  { s with lcdc := 0x91, phase := ph, mode := m, pending := some (e, s.now) }

/-- The next event is this one, this far ahead. -/
def next (s : State) (e : Event) (d : Nat) : Bool := decide (s.pending = some (e, d))

/-- The interrupt requests put out, oldest first. -/
def irqs (s : State) : List (Nat × Output) := s.outputs.filter fun r => decide (r.2 = .irqStat ∨ r.2 = .irqVblank)

/-! LCDC, STAT, LY, LYC -/

/-- T-STAT-13. -/
theorem test_rdLcdc : returns (exec .rdLcdc { cgb with lcdc := 0x91 }) 0x91 = true := by decide

/-- T-STAT-1. -/
theorem test_rdStat : returns (exec .rdStat
    { cgb with statEn := 0b1000, cmp := some 5, lyc := 5, mode := .oamSearch }) 0xC6 = true := by decide

/-- T-STAT-6: no comparison value, no match. -/
theorem test_rdStat_none : returns (exec .rdStat cgb) 0x80 = true := by decide

/-- T-STAT-2: the write bug. -/
theorem test_wrStatDmg : gives (exec (.wrStatDmg 0) { dmg with lcdc := 0x91, now := 700, src := .hblank })
    (fun s => decide (s.outputs = [(700, .irqStat)]) && !s.statLine && decide (s.statEn = 0)) = true := by decide

/-- T-STAT-4: the line was high already. -/
theorem test_wrStatDmg_high : gives (exec (.wrStatDmg 0) { dmg with lcdc := 0x91, src := .hblank, statEn := 1, statLine := true })
    (fun s => decide (s.outputs = []) && !s.statLine) = true := by decide

/-- T-STAT-3: colour hardware has no such bug. -/
theorem test_wrStat : gives (exec (.wrStat 0) { cgb with lcdc := 0x91, src := .hblank })
    (fun s => decide (s.outputs = []) && !s.statLine) = true := by decide

/-- T-ENC-16: bits 7 and 2 to 0 are ignored. -/
theorem test_wrStat_bits : gives (exec (.wrStat 0x0F) cgb) (fun s => decide (s.statEn = 0b0001)) = true := by decide

/-- T-STAT-10. -/
theorem test_ly : returns (exec .rdLy { cgb with ly := 77 }) 0x4D = true
    ∧ gives (exec (.wrLy 0) { cgb with ly := 77 }) (fun s => decide (s.ly = 77)) = true := by decide

/-- T-STAT-5. -/
theorem test_wrLyc : gives (exec (.wrLyc 10) { cgb with lcdc := 0x91, cmp := some 10, statEn := 0b1000 })
    (fun s => decide (s.outputs = [(0, .irqStat)]) && (statRead s).getLsbD 2) = true := by decide

/-- R217: with the LCD off the write still recomputes against the frozen comparison value. -/
theorem test_wrLyc_off : gives (exec (.wrLyc 10) { cgb with cmp := some 10, statEn := 0b1000 })
    (fun s => decide (s.outputs = [(0, .irqStat)]) && s.statLine) = true := by decide

/-- R223. -/
theorem test_rdLyc : returns (exec .rdLyc { cgb with lyc := 0x99 }) 0x99 = true := by decide

/-- Program P1, operation 4. -/
theorem test_wrLcdc_enable : gives (exec (.wrLcdc 0x91) { dmg with cmp := some 0 })
    (fun s => next s .glitchXfer 76 && s.firstFrame && decide (s.cmp = none)) = true := by decide

/-- T-STAT-11. -/
theorem test_wrLcdc_disable : gives (exec (.wrLcdc 0x11)
      { dmg with lcdc := 0x91, phase := .xfer, mode := .transfer, locks := Locks.all, cmp := some 0,
                 pending := some (.hblankPre, 696), now := 600 })
    (fun s => decide (s.pending = none ∧ s.phase = .off ∧ s.locks = Locks.open ∧ statRead s = 0x84)
      && decide ((600, Output.log .lcdDisabledOutsideVblank) ∈ s.outputs)) = true := by decide

/-! Scroll and window registers: read back as written (R303 to R310) -/

theorem test_scroll_registers :
    returns (exec .rdScy { cgb with scy := 1 }) 1 = true ∧ returns (exec .rdScx { cgb with scx := 2 }) 2 = true
    ∧ returns (exec .rdWy { cgb with wy := 3 }) 3 = true ∧ returns (exec .rdWx { cgb with wx := 4 }) 4 = true
    ∧ gives (exec (.wrScy 1) cgb) (fun s => decide (s.scy = 1 ∧ s.scx = 0)) = true
    ∧ gives (exec (.wrScx 2) cgb) (fun s => decide (s.scx = 2 ∧ s.scy = 0)) = true
    ∧ gives (exec (.wrWy 3) cgb) (fun s => decide (s.wy = 3 ∧ s.wx = 0)) = true
    ∧ gives (exec (.wrWx 4) cgb) (fun s => decide (s.wx = 4 ∧ s.wy = 0)) = true := by decide

/-! OAM and VRAM -/

/-- T-OAM-1, and T-OAM-3's locked read. -/
theorem test_rdOam : returns (exec (.rdOam 3) { cgb with oam := [(3, 0xA5)] }) 0xA5 = true
    ∧ returns (exec (.rdOam 3) { cgb with oam := [(3, 0xA5)], locks := ⟨true, false, false, false⟩ }) 0xFF
      = true := by decide

/-- T-OAM-1 and T-OAM-2. -/
theorem test_wrOam : gives (exec (.wrOam 3 0xA5) cgb) (fun s => decide (s.oam = [(3, 0xA5)])) = true
    ∧ gives (exec (.wrOam 0 0x11) { cgb with locks := ⟨false, true, false, false⟩ })
      (fun s => decide (s.oam = [])) = true := by decide

/-- T-VRAM-10's locked read, and bank 1 at address 0x3800 of the store. -/
theorem test_rdVram : returns (exec (.rdVram 0x1800) { cgb with vram := [(0x3800, 7)], vramBank := 1 }) 7 = true
    ∧ returns (exec (.rdVram 0) { cgb with locks := ⟨false, false, true, false⟩ }) 0xFF = true := by decide

/-- T-VRAM-1, and R14 on non-colour hardware. -/
theorem test_wrVram : gives (exec (.wrVram 0x1800 7) { cgb with vramBank := 1 })
      (fun s => decide (s.vram = [(0x3800, 7)])) = true
    ∧ gives (exec (.wrVram 0x1800 7) { dmg with vramBank := 1 })
      (fun s => decide (s.vram = [(0x1800, 7)])) = true := by decide

/-- T-OAM-5: no locks, the later entry wins; and R150's refusal. -/
theorem test_oamBatch :
    gives (exec (.oamBatch [⟨0, 0x33⟩, ⟨0, 0x44⟩]) { cgb with locks := Locks.all })
      (fun s => decide (s.oam = [(0, 0x44)])) = true
    ∧ exec (.oamBatch [⟨0, 1⟩, ⟨160, 2⟩]) cgb = .refused .batchEntryOutOfRange := ⟨by decide, rfl⟩

/-- T-VRAM-11: both banks, on non-colour hardware too. -/
theorem test_vramBatch : gives (exec (.vramBatch [⟨0x1800, 0, 0x01⟩, ⟨0x1800, 1, 0x20⟩]) dmg)
    (fun s => decide (s.vram = [(0x1800, 0x01), (0x3800, 0x20)])) = true := by decide

/-- T-VRAM-3, T-VRAM-4. -/
theorem test_planePixel :
    (List.range 8).map (planePixel 0xF0 0xCC) = [3, 3, 1, 1, 2, 2, 0, 0]
    ∧ (List.range 8).map (planePixel 0x00 0xFF) = [2, 2, 2, 2, 2, 2, 2, 2] := by decide

/-- T-VRAM-5, T-VRAM-6. -/
theorem test_bgTileAddr :
    [0x00#8, 0x80#8, 0xFF#8].map (bgTileAddr { cgb with lcdc := 0x10 }) = [0x0000, 0x0800, 0x0FF0]
    ∧ [0x00#8, 0x7F#8, 0x80#8, 0xFF#8].map (bgTileAddr cgb) = [0x1000, 0x17F0, 0x0800, 0x0FF0] := by decide

/-- T-VRAM-9. -/
theorem test_vramRegion :
    vramRegion 0x17FF = .tileData 383 15 ∧ vramRegion 0x1800 = .map0 0 ∧ vramRegion 0x1C00 = .map1 0 := by decide

/-- T-OAM-4. -/
theorem test_sprite : sprite { cgb with oam := [(20, 0x50), (21, 0x30), (22, 0x07), (23, 0xF8)] } 5
    = ⟨0x50, 0x30, 0x07, true, true, true, true, true, 0⟩ := by decide

/-! The events (T-SEQ-1, T-SEQ-2, T-SEQ-5, T-SEQ-6) -/

theorem test_evGlitchXfer : gives (exec .evGlitchXfer { due cgb .glitchWait .hblank .glitchXfer with
      now := 76,
      pending := some (.glitchXfer, 76) })
    (fun s => next s .glitchHblank 248 && decide (statRead s = 0x83 ∧ s.locks = Locks.all)) = true := by decide

theorem test_evGlitchHblank : gives (exec .evGlitchHblank { due cgb .glitchXfer .transfer .glitchHblank with
      now := 248, pending := some (.glitchHblank, 248), locks := Locks.all })
    (fun s => next s .line0Start 444 && decide (statRead s = 0x80 ∧ s.locks = Locks.open)) = true := by decide

theorem test_evLine0Start : gives (exec .evLine0Start (due cgb .glitchHblank .hblank .line0Start))
    (fun s => next s .oamCont 4 && decide (statRead s = 0x80 ∧ s.src = .none ∧ s.locks.oamW = true)) = true := by
  decide

theorem test_evOamCont : gives (exec .evOamCont (due cgb .oam .hblank .oamCont))
    (fun s => next s .xferStart 80 && decide (statRead s = 0x86 ∧ s.locks = ⟨true, false, false, false⟩)) = true := by
  decide

/-- T-SEQ-2, SCX = 3. -/
theorem test_evXferStart : gives (exec .evXferStart { due cgb .oam .oamSearch .xferStart with scx := 3 })
    (fun s => next s .hblankPre 172 && decide (s.penalty = 4 ∧ s.locks = Locks.all)) = true := by decide

/-- T-STAT-8: the line is high already. -/
theorem test_evHblankPre : gives (exec .evHblankPre { due cgb .xfer .transfer .hblankPre with
      statEn := 0b1001, cmp := some 0, statLine := true })
    (fun s => next s .hblankStart 4 && decide (s.src = .hblank ∧ s.outputs = [])) = true := by decide

/-- A line at HBlank entry. -/
def line (s : State) : State := due s .xfer .transfer .hblankStart

/-- T-REN-1: two pixels of a composed line, and the line's end. -/
theorem test_evHblankStart : gives (exec .evHblankStart
      { line dmg with vram := [(0x10, 0xFF), (0x1800, 0x01)], bgp := 0xE4 })
    (fun s => next s .hblankEnd 196 && decide (s.fb[0][7] = .gray 170 ∧ s.fb[0][8] = .gray 255)) = true := by decide

/-- T-SEQ-2: with SCX = 3 the line still ends at 452. -/
theorem test_evHblankStart_penalty : gives (exec .evHblankStart { line dmg with penalty := 4 })
    (fun s => next s .hblankEnd 192) = true := by decide

/-- Line 0 to line 1: no new edge when the line stays high (T-STAT-9). -/
theorem test_evHblankEnd : gives (exec .evHblankEnd { due cgb .hblank .hblank .hblankEnd with
      statEn := 0b0101, src := .hblank, statLine := true, cmp := some 0 })
    (fun s => next s .oamCont 4 && decide (s.ly = 1 ∧ s.src = .oam ∧ irqs s = [])) = true := by decide

/-- T-SEQ-5, program P1: line-144 entry. -/
theorem test_evHblankEnd_vblank : gives (exec .evHblankEnd { due dmg .hblank .hblank .hblankEnd with ly := 143 })
    (fun s => next s .vblankCont 4 && decide (s.ly = 144 ∧ irqs s = [(0, .irqVblank)] ∧ statRead s = 0x80)) = true := by
  decide

/-- T-SEQ-5: the late VBlank request comes here, on line 144. -/
theorem test_evVblankCont : gives (exec .evVblankCont { due dmg .vblank .hblank .vblankCont with
      ly := 144,
      cfg := { Config.default false false with vblankIrqLate := true } })
    (fun s => next s .vblankLine 452 && decide (s.mode = .vblank ∧ irqs s = [(0, .irqVblank)])) = true := by decide

/-- T-SEQ-10: line 145 has no such request. -/
theorem test_evVblankCont_145 : gives (exec .evVblankCont { due dmg .vblank .vblank .vblankCont with
      ly := 145,
      cfg := { Config.default false false with vblankIrqLate := true } })
    (fun s => decide (s.cmp = some 145 ∧ irqs s = [])) = true := by decide

theorem test_evVblankLine :
    gives (exec .evVblankLine { due dmg .vblank .vblank .vblankLine with ly := 144, cmp := some 144 })
      (fun s => next s .vblankCont 4 && decide (s.ly = 145 ∧ s.cmp = none)) = true
    ∧ gives (exec .evVblankLine { due dmg .vblank .vblank .vblankLine with ly := 152 })
      (fun s => next s .l153Cont 4 && decide (s.ly = 153 ∧ s.phase = .l153)) = true := by decide

/-- T-SEQ-6: `IRQ_STAT` for LYC = 153. -/
theorem test_evL153Cont : gives (exec .evL153Cont { due dmg .l153 .vblank .l153Cont with
      ly := 153, lyc := 153,
      statEn := 0b1000 })
    (fun s => next s .l153End 4 && decide (irqs s = [(0, .irqStat)])) = true := by decide

theorem test_evL153End : gives (exec .evL153End { due dmg .l153 .vblank .l153End with ly := 153, cmp := some 153 })
    (fun s => next s .l153FrameEnd 4 && decide (s.ly = 0 ∧ s.cmp = none)) = true := by decide

theorem test_evL153FrameEnd : gives (exec .evL153FrameEnd (due dmg .l153 .vblank .l153FrameEnd))
    (fun s => next s .line0Start 444 && decide (s.cmp = some 0)) = true := by decide

/-- T-SEQ-9. -/
theorem test_event_refused :
    exec .evGlitchXfer { due dmg .glitchWait .hblank .glitchXfer with pending := some (.glitchXfer, 76) }
      = .refused (.eventNotDue .glitchXfer)
    ∧ exec .evGlitchHblank (due dmg .glitchWait .hblank .glitchXfer) = .refused (.eventNotDue .glitchHblank) :=
  ⟨rfl, rfl⟩

/-! HDMA -/

/-- T-HDMA-1, T-HDMA-3, T-HDMA-4, T-HDMA-5. -/
theorem test_hdma_addresses :
    gives (exec (.wrHdma1 0xE1) { cgb with hdma := { cgb.hdma with src := 0x0040 } })
      (fun s => decide (s.hdma.src = 0xC140)) = true
    ∧ gives (exec (.wrHdma2 0x4F) { cgb with hdma := { cgb.hdma with src := 0xC100 } })
      (fun s => decide (s.hdma.src = 0xC140)) = true
    ∧ gives (exec (.wrHdma3 0xFF) cgb) (fun s => decide (s.hdma.dst = 0x9F00)) = true
    ∧ gives (exec (.wrHdma4 0x2F) { cgb with hdma := { cgb.hdma with dst := 0x8100 } })
      (fun s => decide (s.hdma.dst = 0x8120)) = true := by decide

/-- T-RST-1: HDMA1 to HDMA5 read 0xFF. -/
theorem test_hdma_reads :
    returns (exec .rdHdma1 cgb) 0xFF = true ∧ returns (exec .rdHdma2 cgb) 0xFF = true
    ∧ returns (exec .rdHdma3 cgb) 0xFF = true ∧ returns (exec .rdHdma4 cgb) 0xFF = true
    ∧ returns (exec .rdHdma5 cgb) 0xFF = true := by decide

/-- T-HDMA-9: five blocks remain, running and paused. -/
theorem test_rdHdma5 :
    returns (exec .rdHdma5 { cgb with hdma := ⟨0, 0x8000, 5, true, false, false⟩ }) 0x04 = true
    ∧ returns (exec .rdHdma5 { cgb with hdma := ⟨0, 0x8000, 5, true, true, false⟩ }) 0x84 = true := by decide

/-- Program P2, operation 7: a general-purpose transfer within VRAM. -/
theorem test_wrHdma5_gdma : gives (exec (.wrHdma5 0x00)
      { cgb with vram := [(0, 0x3C), (1, 0x7E)], hdma := { cgb.hdma with src := 0x8000, dst := 0x8010 } })
    (fun s => decide (s.now = 32 ∧ s.vram = [(0, 0x3C), (1, 0x7E), (0x10, 0x3C), (0x11, 0x7E)]
      ∧ s.hdma = ⟨0x8010, 0x8020, 0, false, false, true⟩)) = true := by decide

/-- T-HDMA-6: with the LCD off one block of four is copied at once. -/
theorem test_wrHdma5_start : gives (exec (.wrHdma5 0x83) { cgb with hdma := { cgb.hdma with src := 0xC000 } })
    (fun s => decide (s.now = 32 ∧ s.hdma = ⟨0xC010, 0x8010, 3, true, false, false⟩)) = true := by decide

/-! Palettes -/

theorem test_mono_palettes :
    returns (exec .rdBgp { dmg with bgp := 1 }) 1 = true ∧ returns (exec .rdObp0 { dmg with obp0 := 2 }) 2 = true
    ∧ returns (exec .rdObp1 { dmg with obp1 := 3 }) 3 = true
    ∧ gives (exec (.wrObp0 2) dmg) (fun s => decide (s.obp0 = 2 ∧ s.obp1 = 0)) = true
    ∧ gives (exec (.wrObp1 3) dmg) (fun s => decide (s.obp1 = 3 ∧ s.obp0 = 0)) = true := by decide

/-- T-PAL-8's colour RAM: white, red, green, blue. -/
def fourColours : Cram :=
  (((((cgb.bgCram.set 0 0xFF).set 1 0x7F).set 2 0x1F).set 4 0xE0).set 5 0x03).set 7 0x7C

/-- T-PAL-8: the capture; a write of 0 captures nothing. -/
theorem test_wrBgp_capture :
    gives (exec (.wrBgp 0xE4) { compat with bgCram := fourColours })
      (fun s => decide (s.colz.bgp = some ⟨⟨255, 255, 255⟩, ⟨255, 0, 0⟩, ⟨0, 255, 0⟩, ⟨0, 0, 255⟩⟩)) = true
    ∧ gives (exec (.wrBgp 0) { compat with bgCram := fourColours }) (fun s => decide (s.colz.bgp = none)) = true := by
  decide

/-- T-PAL-11: no capture on non-colour hardware. -/
theorem test_wrBgp_dmg : gives (exec (.wrBgp 0xE4) dmg) (fun s => decide (s.bgp = 0xE4 ∧ s.colz.bgp = none)) = true := by
  decide

/-- T-PAL-1, T-PAL-2. -/
theorem test_monoColor :
    ([0, 1, 2, 3].map (monoColor dmg .bgp 0xE4)) = [.gray 255, .gray 170, .gray 85, .gray 0]
    ∧ ([0, 1, 2, 3].map (monoColor dmg .bgp 0x1B)) = [.gray 0, .gray 85, .gray 170, .gray 255] := by decide

/-- T-PAL-7. -/
theorem test_rgb5to8 : [0x7FFF#15, 0x001F#15, 0x03E0#15, 0x7C00#15, 0x0421#15, 0x294A#15].map (rgb5to8 .expand)
    = [⟨255, 255, 255⟩, ⟨255, 0, 0⟩, ⟨0, 255, 0⟩, ⟨0, 0, 255⟩, ⟨8, 8, 8⟩, ⟨82, 82, 82⟩] := by decide

/-- Program P3: the index register's stored and read values. -/
theorem test_bcps : gives (exec (.wrBcps 0xFF) cgb) (fun s => decide (s.bcps = 0xBF)) = true
    ∧ returns (exec .rdBcps { cgb with bcps := 0x90 }) 0xD0 = true := by decide

/-- Program P3, operation 16: the index wraps from 63, bit 7 stays. -/
theorem test_wrBcpd : gives (exec (.wrBcpd 0x12) { cgb with bcps := 0xBF })
    (fun s => decide (s.bgCram[63] = 0x12 ∧ s.bcps = 0x80)) = true := by decide

/-- T-PAL-5, T-PAL-9: 0xFF in mode 3. -/
theorem test_rdBcpd : returns (exec .rdBcpd { cgb with bgCram := fourColours, bcps := 1 }) 0x7F = true
    ∧ returns (exec .rdBcpd { cgb with bgCram := fourColours, bcps := 1, mode := .transfer }) 0xFF = true := by decide

/-- T-PAL-4. -/
theorem test_wrOcpd : gives (exec (.wrOcpd 0x7F) { cgb with ocps := 0x3F })
    (fun s => decide (s.objCram[63] = 0x7F ∧ s.ocps = 0)) = true := by decide

theorem test_ocps : gives (exec (.wrOcps 0xFF) cgb) (fun s => decide (s.ocps = 0xBF)) = true
    ∧ returns (exec .rdOcps cgb) 0x40 = true := by decide

/-- T-PAL-9. -/
theorem test_rdOcpd : returns (exec .rdOcpd { cgb with objCram := fourColours }) 0xFF = true
    ∧ returns (exec .rdOcpd { cgb with objCram := fourColours, ocps := 1, mode := .transfer }) 0xFF = true
    ∧ returns (exec .rdOcpd { cgb with objCram := fourColours, ocps := 5 }) 0x03 = true := by decide

/-- T-PAL-6. -/
theorem test_palettes_dmg : gives (exec (.wrBcps 0x88) dmg) (fun s => decide (s.bcps = 0)) = true
    ∧ returns (exec .rdBcpd dmg) 0xFF = true := by decide

/-! The renderer, one column at a time -/

/-- T-REN-3: the background wraps at 256. -/
theorem test_background_wraps :
    let s := { dmg with lcdc := 0x91, scx := 0xFD, bgp := 0xE4, vram := [(0x10, 0xFF), (0x1800, 0x01)] }
    [2, 3, 10, 11].map (fun x => (layerColumn s 0 x).color) = [.gray 255, .gray 170, .gray 170, .gray 255] := by decide

/-- T-REN-5, T-REN-6: the window at WX = 3, and off at WX = 167. -/
theorem test_window :
    let s := { dmg with lcdc := 0xF1, wx := 3, bgp := 0xE4, vram := [(0x10, 0xFF), (0x1C00, 0x01)] }
    [0, 3, 4].map (fun x => (layerColumn s 0 x).color) = [.gray 170, .gray 170, .gray 255]
    ∧ windowVisible { s with wx := 167 } 0 = false ∧ windowVisible { s with wx := 166 } 0 = true := by decide

/-- Program P3: the flipped tile. -/
theorem test_colour_flip :
    let s := { cgb with lcdc := 0x91,
                        vram := [(0x10, 0xF0), (0x11, 0xCC), (0x1800, 1), (0x1801, 1), (0x3800, 1), (0x3801, 0x21)] }
    (List.range 16).map (fun x => (layerColumn s 0 x).idx) = [3, 3, 1, 1, 2, 2, 0, 0, 0, 0, 2, 2, 1, 1, 3, 3] := by
  decide

/-- Program P4's line. -/
def spriteLine : State :=
  { dmg with lcdc := 0x93, bgp := 0xE4, obp0 := 0xE4, obp1 := 0x90,
             vram := [(0x10, 0xFF), (0x20, 0xFF), (0x21, 0xFF), (0x1800, 0x01)],
             oam := [(0, 16), (1, 12), (2, 2), (4, 16), (5, 8), (6, 2), (7, 0x80), (8, 16), (9, 10), (10, 2), (11, 0x10)] }

/-- Program P4: occlusion, x-order, both palettes. -/
theorem test_sprite_priority :
    [1, 2, 7, 9, 10, 12].map (fun x => spriteColumn spriteLine 0 x [0, 1, 2] (layerColumn spriteLine 0 x))
      = [.gray 170, .gray 85, .gray 85, .gray 85, .gray 0, .gray 255]
    ∧ selectedSprites spriteLine 0 = [0, 1, 2] := by decide

/-- T-REN-11: a tall sprite flipped over 16 lines. -/
theorem test_tall_sprite :
    let s := { dmg with lcdc := 0x86 }
    let sp : Sprite := ⟨7, 8, 3, false, false, false, false, false, 0⟩
    (spriteRow s 0 sp, spriteTile s 9 sp) = (9, 3)
    ∧ (spriteRow s 0 { sp with yflip := true }, spriteTile s 6 { sp with yflip := true }) = (6, 2) := by decide

/-! Control and time -/

/-- T-RST-1, T-RST-3. -/
theorem test_reset : gives (exec .reset { due cgb .xfer .transfer .hblankPre with
      oam := [(0, 1)], vram := [(5, 5)], locks := Locks.all, hdma := ⟨0x40, 0x8010, 3, true, false, false⟩ })
    (fun s => decide (s.lcdc = 0 ∧ s.oam = [] ∧ s.vram = [] ∧ s.pending = none ∧ irqs s = []
      ∧ s.hdma = ⟨0, 0x8000, 0, false, false, true⟩)) = true := by decide

/-- T-SEQ-7: `wait 0` fires what is due now. -/
theorem test_advance_zero : gives (exec (.advance 0) (due cgb .glitchWait .hblank .glitchXfer))
    (fun s => next s .glitchHblank 172) = true := by decide

/-- T-SEQ-1: from the enable to 448. -/
theorem test_advance_glitch : gives (exec (.advance 448)
      { due dmg .glitchWait .hblank .glitchXfer with pending := some (.glitchXfer, 76) })
    (fun s => next s .xferStart 528 && decide (s.now = 448 ∧ statRead s = 0x86)) = true := by decide

/-- A program comes to run from reset as a list of inputs (program P1, operation 4). -/
theorem test_step_runs_word : gives (step { State.reset with inputs := [.op ⟨0x911FF40#28, .none⟩, .elapse 5] })
    (fun s => decide (s.lcdc = 0x91 ∧ s.inputs = [.elapse 5])) = true := by decide

/-- An event is never passed over by time alone (R231, assumption 6). -/
theorem test_step_elapse : gives (step { due dmg .glitchWait .hblank .glitchXfer with
      pending := some (.glitchXfer, 76), inputs := [.elapse 100] })
    (fun s => decide (s.now = 76)) = true := by decide

/-- The assembler text of rule R151. -/
theorem test_asm : asmText (.rdOam 0) = "rd 65024" ∧ asmText (.wrLcdc 0x91) = "wr LCDC, 145"
    ∧ asmText (.oamBatch [⟨0, 1⟩, ⟨4, 2⟩]) = "oamb [(0, 1), (4, 2)]" ∧ asmText (.advance 5) = "wait 5" := by
  refine ⟨?_, ?_, ?_, ?_⟩ <;> decide +kernel

/-! ## Witnesses: the hypotheses of every obligation can be met -/

/-- A line about to start, in colour mode. -/
def started : State :=
  { cgb with lcdc := 0x91, phase := .oam, mode := .hblank, pending := some (.oamCont, 0), ly := 1, src := .oam,
             locks := ⟨false, true, false, false⟩ }

theorem started_inv : Inv started := by
  refine ⟨⟨by decide, .inl ⟨rfl, rfl, rfl, rfl, rfl⟩, by decide⟩, ?_, .inl rfl, ?_, ?_, rfl⟩
  · intro c h
    cases h
  · exact ⟨by decide, by decide, by decide, by decide, by decide, by decide, by decide, by decide⟩
  · intro e d h
    cases h
    exact Nat.le_refl 0

theorem reset_inv : Inv State.reset := by
  refine ⟨⟨by decide, rfl, rfl, rfl, rfl, rfl⟩, ?_, .inl rfl, ?_, ?_, rfl⟩
  · intro c h
    cases h
  · exact ⟨by decide, by decide, by decide, by decide, by decide, by decide, by decide, by decide⟩
  · intro e d h
    cases h

theorem reset_hdmaLegal : HdmaLegal State.reset.hdma := reset_inv.2.2.2.1

theorem witness_StepRunsDecodedOperation :
    ∃ (s : State) (w : OpWord) (rest : List Input) (i : Instr),
      s.inputs = .op w :: rest ∧ decode s.cfg.colorHw w = .ok i :=
  ⟨{ cgb with inputs := [.op ⟨0x911FF40#28, .none⟩] }, _, _, .wrLcdc 0x91, rfl, rfl⟩

/-- The edges: the last OAM byte, the last VRAM byte of each bank, an empty batch. -/
theorem witness_DecodeOfEncode :
    (Instr.rdOam 159).wellFormed false = true ∧ (Instr.wrVram 0x1FFF 0xFF).wellFormed true = true
    ∧ (Instr.oamBatch [⟨159, 1⟩]).wellFormed false = true ∧ (Instr.vramBatch []).wellFormed false = true
    ∧ (Instr.vramBatch [⟨0x1FFF, 1, 1⟩]).wellFormed false = true ∧ (Instr.wrStat 0).wellFormed true = true
    ∧ (Instr.wrStatDmg 0).wellFormed false = true := by decide

theorem witness_EncodeOfDecode :
    decode true ⟨0xAB0FF44#28, .none⟩ = .ok .rdLy
    ∧ decode true ⟨0xAB1FF44#28, .none⟩ = .ok (.wrLy 0xAB)
    ∧ (OpWord.mk 0xAB1FF44#28 .none).cls = 1 := ⟨rfl, rfl, rfl⟩

/-- Each reserved space at its edges (R149). -/
theorem witness_ReservedWordsRefused :
    4 ≤ (OpWord.mk 0x0040000#28 .none).cls.toNat
    ∧ ((OpWord.mk 0x0020000#28 .none).cls = 2 ∧ (OpWord.mk 0x0020000#28 .none).arg = 0)
    ∧ 0x0D < (OpWord.mk 0x002000E#28 .none).arg.toNat
    ∧ ((OpWord.mk 0x0030004#28 .none).cls = 3 ∧ 3 < (OpWord.mk 0x0030004#28 .none).arg.toNat)
    ∧ (∀ a ∈ [0x7FFF, 0xA000, 0xFDFF, 0xFEA0, 0xFF3F, 0xFF46, 0xFF4C, 0xFF50, 0xFF56, 0xFF67, 0xFF6C],
        ¬ (0x8000 ≤ a ∧ a ≤ 0x9FFF) ∧ ¬ (0xFE00 ≤ a ∧ a ≤ 0xFE9F)
        ∧ ¬ (0xFF40 ≤ a ∧ a ≤ 0xFF4B ∧ a ≠ 0xFF46) ∧ ¬ (0xFF51 ≤ a ∧ a ≤ 0xFF55)
        ∧ ¬ (0xFF68 ≤ a ∧ a ≤ 0xFF6B))
    ∧ ({ cgb with inputs := [Input.op ⟨0x0040000#28, .none⟩] } : State).inputs
        = [.op ⟨0x0040000#28, .none⟩]
    ∧ cgb.pending ≠ some (.glitchXfer, cgb.now) := by
  refine ⟨by decide, by decide, by decide, by decide, by decide, rfl, by decide⟩

theorem witness_LcdcWrite :
    (0x11#8).getLsbD 7 = cgb.lcdc.getLsbD 7
    ∧ (cgb.lcdc.getLsbD 7 = false ∧ (0x80#8).getLsbD 7 = true)
    ∧ (started.lcdc.getLsbD 7 = true ∧ (0x7F#8).getLsbD 7 = false) := by decide

/-- Both sides of the write lock, with a byte stored. -/
theorem witness_OamWriteStores :
    Memory.wf 160 [(159, 1)] = true ∧ ({ started with oam := [(159, 1)] } : State).locks.oamW = true
    ∧ ({ cgb with oam := [(159, 1)] } : State).locks.oamW = false := by decide

theorem witness_VramWriteStores :
    Memory.wf 0x4000 [(0x3FFF, 1)] = true ∧ cgb.locks.vramW = false
    ∧ ({ cgb with locks := Locks.all } : State).locks.vramW = true := by decide

/-- In range at both ends, and just out of range. -/
theorem witness_OamBatchApplies :
    Memory.wf 160 cgb.oam = true ∧ (∀ w ∈ [OamWrite.mk 0 1, ⟨159, 2⟩, ⟨159, 3⟩], w.off < 160)
    ∧ ∃ w ∈ [OamWrite.mk 0 1, ⟨160, 2⟩], 160 ≤ w.off := by decide

theorem witness_VramBatchApplies :
    Memory.wf 0x4000 dmg.vram = true
    ∧ (∀ w ∈ [VramWrite.mk 0 0 1, ⟨0x1FFF, 1, 2⟩], w.off < 0x2000 ∧ w.bank < 2)
    ∧ (∃ w ∈ [VramWrite.mk 0x2000 0 1], 0x2000 ≤ w.off ∨ 2 ≤ w.bank)
    ∧ ∃ w ∈ [VramWrite.mk 0 2 1], 0x2000 ≤ w.off ∨ 2 ≤ w.bank := by decide

/-- Each byte of a sprite, at both ends of the table. -/
theorem witness_SpriteFollowsOamWrite :
    Memory.wf 160 cgb.oam = true ∧ cgb.locks.oamW = false
    ∧ (∃ t, exec (.wrOam ⟨4 * (0 : Fin 40).val + (0 : Fin 4).val, by decide⟩ 1) cgb = .next t)
    ∧ (∃ t, exec (.wrOam ⟨4 * (0 : Fin 40).val + (1 : Fin 4).val, by decide⟩ 1) cgb = .next t)
    ∧ (∃ t, exec (.wrOam ⟨4 * (39 : Fin 40).val + (2 : Fin 4).val, by decide⟩ 1) cgb = .next t)
    ∧ ∃ t, exec (.wrOam ⟨4 * (39 : Fin 40).val + (3 : Fin 4).val, by decide⟩ 0xF8) cgb = .next t :=
  ⟨by decide, by decide, ⟨_, rfl⟩, ⟨_, rfl⟩, ⟨_, rfl⟩, ⟨_, rfl⟩⟩

theorem witness_TileFollowsVramWrite :
    Memory.wf 0x4000 cgb.vram = true ∧ cgb.locks.vramW = false
    ∧ (∃ t, exec (.wrVram (BitVec.ofNat 13 (16 * (0 : Fin 384).val + 2 * (0 : Fin 8).val + false.toNat)) 1) cgb
        = .next t)
    ∧ ∃ t, exec (.wrVram (BitVec.ofNat 13 (16 * (383 : Fin 384).val + 2 * (7 : Fin 8).val + true.toNat)) 1) cgb
        = .next t :=
  ⟨by decide, by decide, ⟨_, rfl⟩, ⟨_, rfl⟩⟩

theorem witness_GlitchLine :
    cgb.charge = 0
    ∧ (due cgb .glitchWait .hblank .glitchXfer).pending = some (.glitchXfer, 0)
    ∧ (due cgb .glitchXfer .transfer .glitchHblank).pending = some (.glitchHblank, 0)
    ∧ hdmaDue (due cgb .glitchXfer .transfer .glitchHblank) = false := by decide

theorem witness_LineZeroStart :
    let s := due cgb .l153 .vblank .line0Start
    s.pending = some (.line0Start, s.now) ∧ s.charge = 0 := by decide

theorem witness_OamSearch : started.pending = some (.oamCont, started.now) ∧ started.charge = 0 := by decide

theorem witness_PixelTransfer :
    let s := due cgb .oam .oamSearch .xferStart
    s.pending = some (.xferStart, s.now) ∧ s.charge = 0 := by decide

theorem witness_HblankSourceLeads :
    let s := due cgb .xfer .transfer .hblankPre
    s.pending = some (.hblankPre, s.now) ∧ s.charge = 0 := by decide

theorem witness_HblankComposes :
    let s := { line cgb with ly := 143 }
    s.pending = some (.hblankStart, s.now) ∧ s.charge = 0 ∧ hdmaDue s = false := by decide

theorem witness_NextLineStarts :
    let s := { due cgb .hblank .hblank .hblankEnd with ly := 142 }
    s.pending = some (.hblankEnd, s.now) ∧ s.charge = 0 ∧ s.ly.toNat < 143 := by decide

theorem witness_VblankEntry :
    let s := { due cgb .hblank .hblank .hblankEnd with ly := 143 }
    s.pending = some (.hblankEnd, s.now) ∧ s.charge = 0 ∧ s.ly = 143 := by decide

theorem witness_VblankLines :
    cgb.charge = 0 ∧ (due cgb .vblank .vblank .vblankCont).pending = some (.vblankCont, 0)
    ∧ (due cgb .vblank .vblank .vblankLine).pending = some (.vblankLine, 0) := by decide

theorem witness_LineOneFiftyThree :
    cgb.charge = 0 ∧ (due cgb .l153 .vblank .l153Cont).pending = some (.l153Cont, 0)
    ∧ (due cgb .l153 .vblank .l153End).pending = some (.l153End, 0)
    ∧ (due cgb .l153 .vblank .l153FrameEnd).pending = some (.l153FrameEnd, 0) := by decide

/-- An event due at the target itself, one that is one unit later, and none. -/
theorem witness_AdvanceFiresEveryDueEvent :
    started.charge = 0
    ∧ (let s := { started with pending := some (.oamCont, 5) }
       s.pending = some (.oamCont, 5) ∧ 5 ≤ s.now + 5)
    ∧ (∀ e d, ({ started with pending := some (.oamCont, 6) } : State).pending = some (e, d) → 0 + 5 < d)
    ∧ ∀ e d, cgb.pending = some (e, d) → cgb.now + 5 < d := by
  refine ⟨by decide, by decide, ?_, ?_⟩ <;> intro e d h <;> cases h
  decide

/-- The first line, the last that a visible line follows, and the last visible line. -/
theorem witness_VisibleLineLength :
    let s := { started with pending := some (.oamCont, 4) }
    s.charge = 0 ∧ s.pending = some (.oamCont, s.now + 4)
    ∧ ({ s with ly := 0 } : State).ly.toNat ≤ 143
    ∧ ({ s with ly := 142 } : State).ly.toNat < 143 ∧ ({ s with ly := 143 } : State).ly.toNat ≤ 143 := by decide

theorem witness_FrameLength :
    let s := due cgb .glitchHblank .hblank .line0Start
    s.charge = 0 ∧ s.pending = some (.line0Start, s.now) := by decide

/-- The destination at both ends of its window. -/
theorem witness_HdmaAddressWrites :
    HdmaLegal State.reset.hdma ∧ HdmaLegal ⟨0xFFF0, 0x9FF0, 128, true, true, false⟩ :=
  ⟨reset_hdmaLegal, by decide, by decide, by decide, by decide, by decide, by decide, by decide, by decide⟩

theorem witness_HdmaReads : HdmaLegal State.reset.hdma ∧ HdmaLegal ⟨0, 0x8000, 1, true, false, false⟩ :=
  ⟨reset_hdmaLegal, by decide, by decide, by decide, by decide, by decide, by decide, by decide, by decide⟩

theorem witness_BlockCopiesSixteenBytes :
    Memory.wf 0x4000 cgb.vram = true ∧ HdmaLegal ⟨0x8000, 0x9FF0, 2, true, false, false⟩ :=
  ⟨by decide, by decide, by decide, by decide, by decide, by decide, by decide, by decide, by decide⟩

theorem witness_HdmaStartAndPause :
    started.charge = 0 ∧ dmg.cfg.colorHw = false
    ∧ (started.cfg.colorHw = true ∧ (0xFF#8).getLsbD 7 = true ∧ lcdOn started = true
      ∧ started.phase ≠ .hblank ∧ started.phase ≠ .glitchHblank)
    ∧ (let s := { started with hdma := ⟨0, 0x8000, 1, true, false, false⟩ }
       (0x7F#8).getLsbD 7 = false ∧ s.hdma.active = true ∧ s.hdma.paused = false) := by decide

/-- With no transfer, and with a paused one; the longest transfer ends just before the event. The first
clause needs no such event: T-SEQ-8's longest transfer passes several. -/
theorem witness_GdmaRunsWhole :
    cgb.charge = 0 ∧ cgb.cfg.colorHw = true ∧ (0x7F#8).getLsbD 7 = false
    ∧ (cgb.hdma.active = true → cgb.hdma.paused = true)
    ∧ (let h : Hdma := ⟨0, 0x8000, 3, true, true, false⟩; h.active = true → h.paused = true)
    ∧ ∀ e d, ({ started with pending := some (.oamCont, 4097) } : State).pending = some (e, d) →
        0 + ((0x7F#8).toNat % 128 + 1) * 16 * 2 < d := by
  refine ⟨by decide, by decide, by decide, by decide, by decide, ?_⟩
  intro e d h
  cases h
  decide

theorem witness_HdmaStartCopiesOneBlockAtOnce :
    cgb.charge = 0 ∧ cgb.cfg.colorHw = true ∧ (0x80#8).getLsbD 7 = true
    ∧ lcdOn cgb = false
    ∧ (due cgb .hblank .hblank .hblankEnd).phase = .hblank
    ∧ (due cgb .glitchHblank .hblank .line0Start).phase = .glitchHblank
    ∧ ∀ e d, ({ due cgb .hblank .hblank .hblankEnd with pending := some (.hblankEnd, 33) } : State).pending
        = some (e, d) → 0 + 16 * 2 < d := by
  refine ⟨by decide, by decide, by decide, by decide, by decide, by decide, ?_⟩
  intro e d h
  cases h
  decide

theorem witness_HblankEntryCopiesOneBlock :
    let s := { line cgb with hdma := ⟨0xC000, 0x9FF0, 1, true, false, false⟩, penalty := 8 }
    let g := { s with pending := some (.glitchHblank, 0) }
    s.charge = 0 ∧ HdmaLegal s.hdma ∧ hdmaDue s = true
    ∧ s.pending = some (.hblankStart, s.now) ∧ PenaltyLegal s
    ∧ hdmaDue g = true ∧ g.pending = some (.glitchHblank, g.now) :=
  ⟨by decide, ⟨by decide, by decide, by decide, by decide, by decide, by decide, by decide, by decide⟩,
    by decide, by decide, .inr (.inr rfl), by decide, by decide⟩

theorem witness_PauseAndResumeKeepCount :
    let s := { started with hdma := ⟨0xC000, 0x8000, 128, true, false, false⟩ }
    s.charge = 0 ∧ s.cfg.colorHw = true ∧ HdmaLegal s.hdma ∧ s.hdma.active = true ∧ s.hdma.paused = false
    ∧ lcdOn s = true ∧ s.phase ≠ .hblank ∧ s.phase ≠ .glitchHblank ∧ (0x00#8).getLsbD 7 = false :=
  ⟨by decide, by decide, ⟨by decide, by decide, by decide, by decide, by decide, by decide, by decide, by decide⟩,
    by decide, by decide, by decide, by decide, by decide, by decide⟩

theorem witness_ColourPaletteRegisters : cgb.cfg.colorHw = true ∧ compat.cfg.colorHw = true := by decide

theorem witness_ColourPaletteRegistersAbsent : dmg.cfg.colorHw = false := by decide

/-- A full turn, from the last index; and a byte that a run of one leaves. -/
theorem witness_PaletteAutoIncrement :
    let s := { cgb with bcps := 0xBF, ocps := 0x3F }
    s.cfg.colorHw = true ∧ (List.replicate 64 (0x5A : Byte)).length ≤ 64 ∧ s.mode ≠ .transfer
    ∧ (∃ k, k < 64 ∧ ∀ j, j < 1 → k ≠ (s.bcps.toNat % 64 + j) % 64)
    ∧ ∃ k, k < 64 ∧ ∀ j, j < 1 → k ≠ (s.ocps.toNat % 64 + j) % 64 :=
  ⟨by decide, by decide, by decide, ⟨0, by decide, by decide⟩, 0, by decide, by decide⟩

/-- Two states that differ outside the picture. -/
theorem witness_CompositionReadsOnlyThePicture : SamePicture spriteLine { spriteLine with now := 7, ly := 3 } :=
  ⟨rfl, rfl, rfl, rfl, rfl, rfl, rfl, rfl, rfl, rfl, rfl, rfl, rfl, rfl, rfl, rfl, rfl⟩

/-- Eleven sprites on the line (T-REN-12): sprite 10 is left out. -/
theorem witness_FirstTenSpritesSelected :
    let s := { dmg with oam := (List.range 11).map fun k => (4 * k, 16) }
    9 ∈ selectedSprites s 0 ∧ (oamAt s 40).toNat ≤ 0 + 16 ∧ 0 + 16 < (oamAt s 40).toNat + 8
    ∧ 10 ∉ selectedSprites s 0 := by decide

/-- Program P4, column 5, where sprite 2 beats sprite 0; column 1, where none draws; objects off; and the
first and last row of a sprite. -/
theorem witness_SpritePriority :
    let s := spriteLine
    objOn s = true
    ∧ (2 ∈ selectedSprites s 0 ∧ drawsPixel s 0 5 (layerColumn s 0 5) 2
      ∧ ∀ j ∈ selectedSprites s 0, drawsPixel s 0 5 (layerColumn s 0 5) j → j ≠ 2 →
          if colorMode s = true then 2 < j
          else (sprite s 2).x.toNat < (sprite s j).x.toNat
            ∨ ((sprite s 2).x.toNat = (sprite s j).x.toNat ∧ 2 < j))
    ∧ (∀ k ∈ selectedSprites s 0, ¬ drawsPixel s 0 1 (layerColumn s 0 1) k)
    ∧ objOn dmg = false
    ∧ ((oamAt s 0).toNat ≤ 0 + 16 ∧ 0 + 16 < (oamAt s 0).toNat + 8)
    ∧ ((oamAt s 0).toNat ≤ 7 + 16 ∧ 7 + 16 < (oamAt s 0).toNat + 8) := by
  unfold drawsPixel
  decide

/-- The background off, on, and colour mode with it off; objects off. -/
theorem witness_BackgroundAndWindowPixel :
    (colorMode dmg = false ∧ bgOn dmg = false) ∧ objOn dmg = false
    ∧ bgOn { dmg with lcdc := 0x91 } = true ∧ (colorMode cgb = true ∧ bgOn cgb = false) := by decide

theorem witness_CompositionWritesOneRow : (0 : Nat) < 144 ∧ 143 < 144 := by decide

theorem witness_StepKeepsInvariant :
    let s := { started with inputs := [.elapse 3] }
    Inv s ∧ ∃ t, step s = .next t := ⟨started_inv, _, rfl⟩

theorem witness_InvariantGivesStateRanges : Inv started ∧ Inv State.reset
    ∧ State.reset.phase = .off ∧ started.phase ≠ .off := ⟨started_inv, reset_inv, by decide, by decide⟩

theorem witness_StepKeepsMemoryCanonical :
    let s := { cgb with oam := [(3, 1)], vram := [(0x3FFF, 2)], inputs := [.op ⟨0x001FE03#28, .none⟩] }
    MemoryCanonical s ∧ ∃ t, step s = .next t := ⟨⟨by decide, by decide⟩, _, rfl⟩

theorem witness_StepKeepsLineSettled :
    let s := { started with statEn := 0b0100, statLine := true, inputs := [.op ⟨0x001FF41#28, .none⟩] }
    LineSettled s ∧ ∃ t, step s = .next t := ⟨by unfold LineSettled; decide, _, rfl⟩

theorem witness_VariantIsRespected :
    let s := { dmg with inputs := [.op ⟨0x7F1FF69#28, .none⟩] }
    (∃ t, step s = .next t) ∧ ColourAbsent s ∧ CaptureOnlyCompat s :=
  ⟨⟨_, rfl⟩, fun _ => ⟨rfl, rfl, rfl, rfl, rfl⟩, fun _ => rfl⟩

theorem witness_TimeAndHistoryOnlyGrow :
    let s := { started with inputs := [.elapse 0] }
    Inv s ∧ ∃ t, step s = .next t := ⟨started_inv, _, rfl⟩

/-- An enable leaves the off state; a write to LYC that matches the frozen comparison value raises a
request and stays in it. -/
theorem witness_OffIsQuietAndLeftOnlyByEnable :
    let s := { State.reset with cmp := some 5, statEn := 0b1000 }
    Inv s ∧ s.phase = .off
    ∧ (∃ t, exec (.wrLcdc 0x80) s = .next t ∧ t.phase ≠ .off)
    ∧ ∃ t, exec (.wrLyc 5) s = .next t ∧ t.phase = .off ∧ t.outputs = s.outputs ++ [(0, .irqStat)] := by
  refine ⟨?_, rfl, ⟨_, rfl, by decide⟩, _, rfl, rfl, rfl⟩
  refine ⟨reset_inv.1, ?_, reset_inv.2.2⟩
  intro c h
  cases h
  decide

end Sys2Proof.Tests
end

/-! PROOFS. A visible line's start and the entry to vertical blank as one record update each, and what an
EV operation that charges nothing answers (rules R231, R240, R250). -/

namespace Sys2Proof.Machine

/-- The pending event, due now, whose handler charges nothing: the operation is the handler. -/
theorem exec_event_uncharged {e : Event} {s : State} (hp : s.pending = some (e, s.now)) (hc : s.charge = 0)
    (he : eventCharge e s = 0) : exec e.instr s = .next (handle e { s with pending := none }) := by
  have hf : (fire e s).charge = 0 := by rw [(fire_sequence e s).2.1, hc, he]
  rw [exec_event, fireAdmitted_due hp, settle_zero hf, fire]

/-- A line's start (rule R240). -/
theorem lineStart_eq (s : State) :
    let t := { s with cmp := none, src := lineStartSrc s }
    lineStart s = { t with
      phase := .oam
      locks := ⟨false, true, false, false⟩
      statLine := statSources t
      outputs := s.outputs ++ [(s.now, .setLy s.ly)] ++ lockChange ⟨false, true, false, false⟩ s
        ++ statEdge t
      pending := some (.oamCont, s.now + 4) } := by
  simp only [lineStart, setSrc_def, setLY_def, emit, lockSet_eq, recompute_eq, schedule]
  rfl

/-- The picture handed out: blank for the first frame after enable (rules R54, R250). -/
def framePicture (s : State) : FrameBuffer :=
  if s.firstFrame = true then Vector.replicate 144 (Vector.replicate 160 s.cfg.blank) else s.fb

theorem blankFirstFrame_picture (s : State) :
    blankFirstFrame s = { s with fb := framePicture s, firstFrame := false } := by
  rw [blankFirstFrame_eq]
  unfold blankFirstFrame framePicture
  split <;> rfl

/-- The VBlank request of line 144's entry (rules R10, R250). -/
def entryRequest (s : State) : List (Nat × Output) :=
  if s.cfg.vblankIrqLate = true then [] else [(s.now, .irqVblank)]

theorem vblankAtEntry_request (s : State) :
    vblankAtEntry s = { s with outputs := s.outputs ++ entryRequest s } := by
  unfold vblankAtEntry entryRequest
  split
  · rw [List.append_nil]
  · rfl

/-- The entry to vertical blank (rule R250). -/
theorem vblankEntry_eq (s : State) :
    let t := { s with cmp := none, src := .oam }
    vblankEntry s = { t with
      phase := .vblank
      statLine := statSources t
      outputs := s.outputs ++ [(s.now, .setLy 144)] ++ statEdge t ++ entryRequest s
        ++ [(s.now, .frame (framePicture s))]
      fb := framePicture s
      firstFrame := false
      windowLine := 0
      pending := some (.vblankCont, s.now + 4) } := by
  simp only [vblankEntry, setSrc_def, setLY_def, emitFrame_def, emit, recompute_eq, vblankAtEntry_request,
    blankFirstFrame_picture, schedule]
  rfl

end Sys2Proof.Machine

/-! PROOFS. What an operation and a step can do, each said once: every statement about all steps is
proved case by case from these. -/

namespace Sys2Proof.Machine

/-! ## What an operation can do -/

/-- The next states an operation can answer with, by what the operation reaches. -/
inductive ExecEffect : Instr → State → State → Prop
  /-- an EV operation fired the pending event, due now -/
  | event {s : State} (e : Event) (hp : s.pending = some (e, s.now)) : ExecEffect e.instr s (settle (fire e s))
  | advance {s : State} (n : Nat) : ExecEffect (.advance n) s (runUntil (s.now + n) s)
  | hdma5 {s : State} (v : Byte) : ExecEffect (.wrHdma5 v) s (settle (hdma5Write v s))
  | lcdc {s : State} (v : Byte) : ExecEffect (.wrLcdc v) s (lcdcWrite v s)
  | stat {s : State} (v : Byte) : ExecEffect (.wrStat v) s (recompute { s with statEn := statEnables v })
  /-- the write bug recomputes twice (rule R216) -/
  | statDmg {s : State} (v : Byte) : ExecEffect (.wrStatDmg v) s
      (recompute { recompute { s with statEn := 0b1111#4 } with statEn := statEnables v })
  | lyc {s : State} (v : Byte) : ExecEffect (.wrLyc v) s (recompute { s with lyc := v })
  | reset {s t : State} (h : execReset s = .next t) : ExecEffect .reset s t
  /-- a write to a monochrome palette, with its capture -/
  | palette {i : Instr} {s t : State} (ctx : PalCtx) (v : Byte)
      (h : t = { capture ctx v s with bgp := t.bgp, obp0 := t.obp0, obp1 := t.obp1 }) : ExecEffect i s t
  /-- a write to a register that only colour hardware has -/
  | colour {i : Instr} {s t : State} (hw : s.cfg.colorHw = true)
      (h : t = { s with
        bcps := t.bcps, ocps := t.ocps, bgCram := t.bgCram, objCram := t.objCram, hdma := t.hdma }) :
      ExecEffect i s t
  /-- a read, a write to a register without other effect or to a byte store, or a write that is dropped -/
  | plain {i : Instr} {s t : State}
      (h : t = { s with
        result := t.result, scy := t.scy, scx := t.scx, wy := t.wy, wx := t.wx, oam := t.oam
        vram := t.vram }) :
      ExecEffect i s t

theorem ExecEffect.of_event {e : Event} {s t : State} (h : exec e.instr s = .next t) :
    ExecEffect e.instr s t := by
  rw [exec_event] at h
  obtain ⟨hp, rfl⟩ := fireAdmitted_next h
  exact .event e hp

/-- A dropped write is a plain one. -/
theorem ExecEffect.unchanged {i : Instr} {s : State} : ExecEffect i s s := .plain rfl

/-- A write to a register that only colour hardware has: dropped where it is absent. -/
theorem ExecEffect.of_colorHw {i : Instr} {s u : State}
    (h : u = { s with
      bcps := u.bcps, ocps := u.ocps, bgCram := u.bgCram, objCram := u.objCram, hdma := u.hdma }) :
    ExecEffect i s (if s.cfg.colorHw then u else s) := by
  split
  · rename_i hw; exact .colour hw h
  · exact .unchanged

/-- Inversion of `exec`; the last line is the reads, the scroll and window registers and WR.LY. -/
theorem exec_effect {i : Instr} {s t : State} (h : exec i s = .next t) : ExecEffect i s t := by
  cases i
  case evGlitchXfer => exact .of_event (e := .glitchXfer) h
  case evGlitchHblank => exact .of_event (e := .glitchHblank) h
  case evLine0Start => exact .of_event (e := .line0Start) h
  case evOamCont => exact .of_event (e := .oamCont) h
  case evXferStart => exact .of_event (e := .xferStart) h
  case evHblankPre => exact .of_event (e := .hblankPre) h
  case evHblankStart => exact .of_event (e := .hblankStart) h
  case evHblankEnd => exact .of_event (e := .hblankEnd) h
  case evVblankCont => exact .of_event (e := .vblankCont) h
  case evVblankLine => exact .of_event (e := .vblankLine) h
  case evL153Cont => exact .of_event (e := .l153Cont) h
  case evL153End => exact .of_event (e := .l153End) h
  case evL153FrameEnd => exact .of_event (e := .l153FrameEnd) h
  case advance n => cases h; exact .advance n
  case reset => exact .reset h
  case wrLcdc v => cases h; exact .lcdc v
  case wrStat v => cases h; exact .stat v
  case wrStatDmg v => cases h; exact .statDmg v
  case wrLyc v => cases h; exact .lyc v
  case wrHdma5 v => cases h; exact .hdma5 v
  case wrBgp v => cases h; exact .palette .bgp v rfl
  case wrObp0 v => cases h; exact .palette .obp0 v rfl
  case wrObp1 v => cases h; exact .palette .obp1 v rfl
  case wrHdma1 | wrHdma2 | wrHdma3 | wrHdma4 | wrBcps | wrBcpd | wrOcps | wrOcpd =>
    cases h; exact .of_colorHw rfl
  case wrOam off v =>
    cases h
    by_cases hl : s.locks.oamW = true
    · rw [if_pos hl]; exact .unchanged
    · rw [if_neg hl]; exact .plain rfl
  case wrVram off v =>
    cases h
    by_cases hl : s.locks.vramW = true
    · rw [if_pos hl]; exact .unchanged
    · rw [if_neg hl]; exact .plain rfl
  case oamBatch ws =>
    simp only [exec, execOamBatch] at h
    split at h
    · cases h; exact .plain (by rw [oamBatch_frame])
    · cases h
  case vramBatch ws =>
    simp only [exec, execVramBatch] at h
    split at h
    · cases h; exact .plain (by rw [vramBatch_frame])
    · cases h
  all_goals cases h; exact .plain rfl

/-- What a step can do: run an operation on the state with the input taken, let time pass, or change what
stands outside the block (with no input waiting, nothing). -/
theorem step_cases {s t : State} (h : step s = .next t) :
    (∃ i, exec i (takeInput s) = .next t)
    ∨ (∃ n, t = elapse n (takeInput s))
    ∨ t = { s with
        inputs := t.inputs, vramBank := t.vramBank, doubleSpeed := t.doubleSpeed, bus := t.bus } := by
  unfold step at h
  split at h
  · cases h; exact .inr (.inr rfl)
  · unfold stepOp at h
    split at h
    · exact .inl ⟨_, h⟩
    · cases h
  · cases h; exact .inr (.inl ⟨_, rfl⟩)
  all_goals cases h; exact .inr (.inr rfl)

/-- Time that passes by itself moves the time alone. -/
theorem elapse_eq (n : Nat) (s : State) : elapse n s = { s with now := (elapse n s).now } := by
  unfold elapse
  split <;> rfl

/-- Time that passes by itself does not run back. -/
theorem le_elapse_now (n : Nat) (s : State) : s.now ≤ (elapse n s).now := by
  unfold elapse
  split
  · exact Nat.le_max_left _ _
  · exact Nat.le_add_right _ _

end Sys2Proof.Machine

/-! PROOFS. What the hardware variant rules out: no operation touches an absent colour unit, and only a
palette write on colour hardware in non-colour mode captures (rules R8, R9, R500, R616, R620). -/

namespace Sys2Proof.Machine

/-- Two states have the same configuration and captures and, on non-colour hardware, the same colour
registers, colour RAM and DMA engine. -/
def SameColour (s t : State) : Prop :=
  t.cfg = s.cfg ∧ t.colz = s.colz
  ∧ (s.cfg.colorHw = false →
      t.bcps = s.bcps ∧ t.ocps = s.ocps ∧ t.bgCram = s.bgCram ∧ t.objCram = s.objCram ∧ t.hdma = s.hdma)

/-- From one state to another the configuration is kept, and so are the two facts about the variant. -/
def VariantKept (s t : State) : Prop :=
  t.cfg = s.cfg ∧ (ColourAbsent s → ColourAbsent t) ∧ (CaptureOnlyCompat s → CaptureOnlyCompat t)

theorem SameColour.refl (s : State) : SameColour s s := ⟨rfl, rfl, fun _ => ⟨rfl, rfl, rfl, rfl, rfl⟩⟩

theorem SameColour.trans {s t u : State} (h : SameColour s t) (g : SameColour t u) : SameColour s u := by
  obtain ⟨hcfg, hcolz, hcol⟩ := h
  obtain ⟨gcfg, gcolz, gcol⟩ := g
  refine ⟨gcfg.trans hcfg, gcolz.trans hcolz, fun hw => ?_⟩
  obtain ⟨h1, h2, h3, h4, h5⟩ := hcol hw
  obtain ⟨g1, g2, g3, g4, g5⟩ := gcol (hcfg ▸ hw)
  exact ⟨g1.trans h1, g2.trans h2, g3.trans h3, g4.trans h4, g5.trans h5⟩

theorem SameColour.variantKept {s t : State} (h : SameColour s t) : VariantKept s t := by
  obtain ⟨hcfg, hcolz, hcol⟩ := h
  refine ⟨hcfg, fun habs hw => ?_, fun hcap hm => ?_⟩
  · rw [hcfg] at hw
    obtain ⟨h1, h2, h3, h4, h5⟩ := hcol hw
    obtain ⟨a1, a2, a3, a4, a5⟩ := habs hw
    rw [hcfg]
    exact ⟨h1.trans a1, h2.trans a2, h3.trans a3, h4.trans a4, h5.trans a5⟩
  · rw [hcolz]
    apply hcap
    simpa only [colorMode, hcfg] using hm

/-! ## The DMA engine on non-colour hardware -/

/-- Without colour hardware there is no HBlank DMA (rule R515). -/
theorem opportunity_absent {s : State} (hw : s.cfg.colorHw = false) : hdmaHBlankOpportunity s = s := by
  simp [hdmaHBlankOpportunity, hdmaDue, hw]

/-- Without colour hardware a write to HDMA5 is dropped (rule R500). -/
theorem hdma5Write_absent (v : Byte) {s : State} (hw : s.cfg.colorHw = false) : hdma5Write v s = s := by
  simp [hdma5Write, hw]

/-- Without colour hardware no event touches the DMA engine. -/
theorem fire_hdma_absent (e : Event) {s : State} (hw : s.cfg.colorHw = false) :
    (fire e s).hdma = s.hdma := by
  cases e <;> simp only [fire, handle]
  case glitchHblank =>
    simp only [handleGlitchHblank, schedule]
    rw [opportunity_absent (by simpa using hw)]
    simp
  case hblankStart =>
    simp only [handleHblankStart, schedule]
    rw [opportunity_absent (by simpa [composeLine] using hw)]
    simp [composeLine]
  case hblankEnd =>
    simp only [handleHblankEnd]
    split
    · rw [vblankEntry_eq]
    · rw [lineStart_eq]
  case vblankCont =>
    simp only [handleVblankCont, schedule]
    rw [vblankAtCont_eq]
    simp
  case vblankLine =>
    simp only [handleVblankLine]
    split <;> simp [line153Start]
  all_goals
    simp [handleGlitchXfer, handleLine0Start, lineStart, handleOamCont, handleXferStart, handleHblankPre,
      handleL153Cont, handleL153End, handleL153FrameEnd]

/-! ## What each effect keeps -/

theorem sameColour_fire (e : Event) (s : State) : SameColour s (fire e s) := by
  have hdma := fire_hdma_absent e (s := s)
  rw [fire_frame]
  exact ⟨rfl, rfl, fun hw => ⟨rfl, rfl, rfl, rfl, hdma hw⟩⟩

theorem sameColour_hdma5Write (v : Byte) (s : State) : SameColour s (hdma5Write v s) := by
  refine ⟨by rw [hdma5Write_frame], by rw [hdma5Write_frame], fun hw => ?_⟩
  rw [hdma5Write_absent v hw]
  exact ⟨rfl, rfl, rfl, rfl, rfl⟩

theorem sameColour_lcdcWrite (v : Byte) (s : State) : SameColour s (lcdcWrite v s) := by
  rw [lcdcWrite_frame]
  exact .refl s

theorem sameColour_recompute (s : State) : SameColour s (recompute s) := by
  rw [recompute_eq]
  exact .refl s

theorem sameColour_runUntil (target : Nat) (s : State) : SameColour s (runUntil target s) :=
  runUntil_preserves (P := SameColour s) (fun _ _ h => h) (fun _ _ h => h)
    (fun _ e h _ => h.trans (sameColour_fire e _)) target s (.refl s)

theorem sameColour_settle (s : State) : SameColour s (settle s) :=
  settle_preserves (P := SameColour s) (fun _ _ h => h) (fun _ _ h => h)
    (fun _ e h _ => h.trans (sameColour_fire e _)) s (.refl s)

/-- A capture touches the captured tables only. -/
theorem capture_eq (ctx : PalCtx) (v : Byte) (s : State) :
    capture ctx v s = { s with colz := (capture ctx v s).colz } := by
  unfold capture
  split <;> rfl

/-- Nothing is captured but on colour hardware in non-colour mode (rule R616). -/
theorem capture_of_not_compat (ctx : PalCtx) (v : Byte) {s : State}
    (h : (s.cfg.colorHw && !colorMode s) = false) : capture ctx v s = s := by
  simp [capture, captures, h]

theorem variantKept_capture (ctx : PalCtx) (v : Byte) (s : State) : VariantKept s (capture ctx v s) := by
  have hcompat := capture_of_not_compat ctx v (s := s)
  rw [capture_eq]
  refine ⟨rfl, id, fun hcap hm => ?_⟩
  show (capture ctx v s).colz = _
  rw [hcompat hm]
  exact hcap hm

theorem variantKept_reset {s t : State} (h : execReset s = .next t) : VariantKept s t := by
  cases h
  exact ⟨rfl, fun _ _ => ⟨rfl, rfl, rfl, rfl, rfl⟩, fun _ _ => rfl⟩

theorem exec_variantKept {i : Instr} {s t : State} (h : exec i s = .next t) : VariantKept s t := by
  cases exec_effect h with
  | event e _ => exact ((sameColour_fire e s).trans (sameColour_settle _)).variantKept
  | advance n => exact (sameColour_runUntil _ s).variantKept
  | hdma5 v => exact ((sameColour_hdma5Write v s).trans (sameColour_settle _)).variantKept
  | lcdc v => exact (sameColour_lcdcWrite v s).variantKept
  | stat v => exact (sameColour_recompute { s with statEn := statEnables v }).variantKept
  | statDmg v =>
    exact ((sameColour_recompute { s with statEn := 0b1111#4 }).trans
      (sameColour_recompute { recompute { s with statEn := 0b1111#4 } with statEn := statEnables v })).variantKept
  | lyc v => exact (sameColour_recompute { s with lyc := v }).variantKept
  | reset h => exact variantKept_reset h
  | palette ctx v h => rw [h]; exact variantKept_capture ctx v s
  | colour hw h =>
    rw [h]
    exact SameColour.variantKept ⟨rfl, rfl, fun hn => absurd (hn.symm.trans hw) Bool.false_ne_true⟩
  | plain h => rw [h]; exact (SameColour.refl s).variantKept

theorem step_variantKept {s t : State} (h : step s = .next t) : VariantKept s t := by
  obtain ⟨i, hi⟩ | ⟨n, rfl⟩ | ht := step_cases h
  · exact exec_variantKept (s := takeInput s) hi
  · rw [elapse_eq]; exact (SameColour.refl s).variantKept
  · rw [ht]; exact (SameColour.refl s).variantKept

end Sys2Proof.Machine

/-! PROOFS. Time and the history of outputs: an operation's own outputs carry the time at which it began,
the Scheduler's loop moves the time forward from event to event (rules R22, R232). -/

namespace Sys2Proof.Machine

/-- A history of outputs is another one, continued by entries of times from `lo` to `hi`. -/
def Continues (lo hi : Nat) (old new : List (Nat × Output)) : Prop :=
  ∃ added, new = old ++ added ∧ ∀ r ∈ added, lo ≤ r.1 ∧ r.1 ≤ hi

theorem Continues.refl (lo hi : Nat) (old : List (Nat × Output)) : Continues lo hi old old :=
  ⟨[], (List.append_nil old).symm, by simp⟩

theorem Continues.trans {lo hi : Nat} {a b c : List (Nat × Output)} (h : Continues lo hi a b)
    (g : Continues lo hi b c) : Continues lo hi a c := by
  obtain ⟨l, rfl, hl⟩ := h
  obtain ⟨m, rfl, hm⟩ := g
  exact ⟨l ++ m, List.append_assoc .., fun r hr => (List.mem_append.mp hr).elim (hl r) (hm r)⟩

/-- The span of times can be widened. -/
theorem Continues.widen {lo lo' hi hi' : Nat} {a b : List (Nat × Output)} (h : Continues lo hi a b)
    (hlo : lo' ≤ lo) (hhi : hi ≤ hi') : Continues lo' hi' a b := by
  obtain ⟨l, rfl, hl⟩ := h
  exact ⟨l, rfl, fun r hr => ⟨hlo.trans (hl r hr).1, (hl r hr).2.trans hhi⟩⟩

/-- Entries of one time continue a history at that time. -/
theorem Continues.append {n : Nat} {old new : List (Nat × Output)} (h : Continues n n old new)
    {added : List (Nat × Output)} (ha : ∀ r ∈ added, r.1 = n) : Continues n n old (new ++ added) :=
  h.trans ⟨added, rfl, fun r hr => ⟨(ha r hr).ge, (ha r hr).le⟩⟩

/-- The time does not run back from one state to the other, and the history grows by entries of the time
between. -/
def Grows (s t : State) : Prop := s.now ≤ t.now ∧ Continues s.now t.now s.outputs t.outputs

theorem Grows.trans {s t u : State} (h : Grows s t) (g : Grows t u) : Grows s u :=
  ⟨h.1.trans g.1, (h.2.widen le_rfl g.1).trans (g.2.widen h.1 le_rfl)⟩

/-- The outputs of an operation that takes no time all carry the present time. -/
theorem Grows.of_now {s t : State} (hn : t.now = s.now) (h : Continues s.now s.now s.outputs t.outputs) :
    Grows s t := ⟨hn.ge, hn.symm ▸ h⟩

theorem Grows.of_same {s t : State} (hn : t.now = s.now) (ho : t.outputs = s.outputs) : Grows s t :=
  .of_now hn (ho ▸ .refl ..)

/-! ## The outputs of the shared operations carry the present time -/

theorem lockChange_now (l : Locks) (s : State) : ∀ r ∈ lockChange l s, r.1 = s.now := by
  unfold lockChange
  split <;> simp

theorem statEdge_now (s : State) : ∀ r ∈ statEdge s, r.1 = s.now := by
  unfold statEdge
  split <;> simp

theorem single_now (n : Nat) (o : Output) : ∀ r ∈ [(n, o)], r.1 = n := by simp

/-! ## The outputs of the handlers -/

theorem entryRequest_now (s : State) : ∀ r ∈ entryRequest s, r.1 = s.now := by
  unfold entryRequest
  split <;> simp

theorem continues_vblankAtCont {n : Nat} {s : State} {old : List (Nat × Output)} (hn : s.now = n)
    (h : Continues n n old s.outputs) : Continues n n old (vblankAtCont s).outputs := by
  subst hn
  unfold vblankAtCont
  split
  · exact h.append (single_now _ _)
  · exact h

theorem continues_opportunity {n : Nat} {s : State} {old : List (Nat × Output)} (hn : s.now = n)
    (h : Continues n n old s.outputs) : Continues n n old (hdmaHBlankOpportunity s).outputs := by
  subst hn
  unfold hdmaHBlankOpportunity
  split
  · rw [hdmaBlock_eq]; exact h.append (single_now _ _)
  · exact h

theorem continues_lineStart (s : State) : Continues s.now s.now s.outputs (lineStart s).outputs := by
  rw [lineStart_eq]
  exact (((Continues.refl ..).append (single_now _ _)).append (lockChange_now _ s)).append
    (statEdge_now { s with cmp := none, src := lineStartSrc s })

theorem continues_vblankEntry (s : State) :
    Continues s.now s.now s.outputs (vblankEntry s).outputs := by
  rw [vblankEntry_eq]
  exact ((((Continues.refl ..).append (single_now _ _)).append
    (statEdge_now { s with cmp := none, src := .oam })).append (entryRequest_now s)).append (single_now _ _)

/-- What an event puts out carries the time at which it fires. -/
theorem fire_continues (e : Event) (s : State) :
    Continues s.now s.now s.outputs (fire e s).outputs := by
  have base := Continues.refl s.now s.now s.outputs
  cases e <;> simp only [fire, handle]
  case glitchXfer =>
    simp only [handleGlitchXfer, schedule, lockSet_eq]
    exact base.append (lockChange_now _ _)
  case glitchHblank =>
    simp only [handleGlitchHblank, schedule, setSrc_def, lockSet_eq, recompute_eq]
    exact continues_opportunity rfl ((base.append (lockChange_now _ _)).append (statEdge_now _))
  case line0Start =>
    exact continues_lineStart { s with pending := none, ly := 0 }
  case oamCont =>
    simp only [handleOamCont, schedule, setCmp_def, lockSet_eq, recompute_eq]
    exact (base.append (lockChange_now _ _)).append (statEdge_now _)
  case xferStart =>
    simp only [handleXferStart, schedule, setSrc_def, lockSet_eq, recompute_eq]
    exact (base.append (lockChange_now _ _)).append (statEdge_now _)
  case hblankPre =>
    simp only [handleHblankPre, schedule, setSrc_def, recompute_eq]
    exact base.append (statEdge_now _)
  case hblankStart =>
    simp only [handleHblankStart, schedule, composeLine, lockSet_eq]
    exact continues_opportunity rfl (base.append (lockChange_now _ _))
  case hblankEnd =>
    simp only [handleHblankEnd]
    split
    · exact continues_vblankEntry { s with pending := none, ly := s.ly + 1 }
    · exact continues_lineStart { s with pending := none, ly := s.ly + 1 }
  case vblankCont =>
    simp only [handleVblankCont, schedule, setSrc_def, recompute_eq]
    exact continues_vblankAtCont rfl (base.append (statEdge_now _))
  case vblankLine =>
    simp only [handleVblankLine]
    split <;> simp only [line153Start, schedule, setCmp_def, setLY_def, emit, recompute_eq] <;>
      exact (base.append (single_now _ _)).append (statEdge_now _)
  case l153Cont =>
    simp only [handleL153Cont, schedule, setCmp_def, recompute_eq]
    exact base.append (statEdge_now _)
  case l153End =>
    simp only [handleL153End, schedule, setCmp_def, storeLY_def, emit, recompute_eq]
    exact (base.append (single_now _ _)).append (statEdge_now _)
  case l153FrameEnd =>
    simp only [handleL153FrameEnd, schedule, setCmp_def, recompute_eq]
    exact base.append (statEdge_now _)

theorem grows_fire (e : Event) (s : State) : Grows s (fire e s) :=
  .of_now (fire_sequence e s).2.2.1 (fire_continues e s)

/-! ## The Scheduler's loop -/

/-- The event that follows is not overdue: no delay is negative. -/
theorem fire_notOverdue (e : Event) (s : State) : NotOverdue (fire e s) := by
  obtain ⟨hpending, -, hnow, -⟩ := fire_sequence e s
  intro e' due h
  obtain ⟨-, rfl⟩ := Prod.mk.inj (Option.some.inj (hpending.symm.trans h))
  exact hnow.le.trans (Nat.le_add_right _ _)

/-- Moving the time forward alone. -/
theorem grows_now {s : State} {n : Nat} (h : s.now ≤ n) : Grows s { s with now := n } := ⟨h, .refl ..⟩

/-- Time moves forward through the loop: to each due event in turn, and at last to the target. -/
theorem grows_runLoop (fuel target : Nat) {s : State} (hs : NotOverdue s) :
    Grows s (runLoop fuel target s) := by
  induction fuel generalizing target s with
  | zero => exact grows_now (Nat.le_max_left _ _)
  | succ k ih =>
    cases hd : dueBy target s with
    | none => rw [runLoop_idle _ hd]; exact grows_now (Nat.le_max_left _ _)
    | some p =>
      obtain ⟨e, due⟩ := p
      rw [runLoop_fire hd]
      have toDue : Grows s { s with now := due } := grows_now (hs e due (dueBy_some hd).1)
      have rest := ih (max target (due + (fire e { s with now := due }).charge))
        (s := { fire e { s with now := due } with charge := 0 }) (fire_notOverdue e _)
      exact (toDue.trans (grows_fire e _)).trans rest

theorem grows_runUntil (target : Nat) {s : State} (hs : NotOverdue s) : Grows s (runUntil target s) :=
  grows_runLoop _ target (s := { s with charge := 0 }) hs

theorem grows_settle {s : State} (hs : NotOverdue s) : Grows s (settle s) := by
  unfold settle
  split
  · exact .of_same rfl rfl
  · exact grows_runUntil _ hs

/-! ## The operations -/

theorem grows_recompute (s : State) : Grows s (recompute s) := by
  rw [recompute_eq]
  exact .of_now rfl ((Continues.refl ..).append (statEdge_now s))

theorem continues_hdma5Write (v : Byte) (s : State) :
    Continues s.now s.now s.outputs (hdma5Write v s).outputs := by
  have base := Continues.refl s.now s.now s.outputs
  unfold hdma5Write
  split
  · split
    · unfold hdmaStart
      dsimp only
      split
      · rw [hdmaBlock_eq]; exact base.append (single_now _ _)
      · exact base
    · unfold hdmaPauseOrGdma
      split
      · exact base
      · rw [gdma_eq]; exact base.append (single_now _ _)
  · exact base

theorem grows_hdma5Write (v : Byte) (s : State) : Grows s (hdma5Write v s) :=
  .of_now (by rw [hdma5Write_frame]) (continues_hdma5Write v s)

theorem hdma5Write_notOverdue (v : Byte) {s : State} (hs : NotOverdue s) : NotOverdue (hdma5Write v s) := by
  rw [hdma5Write_frame]
  exact hs

theorem continues_lcdcWrite (v : Byte) (s : State) :
    Continues s.now s.now s.outputs (lcdcWrite v s).outputs := by
  have base := Continues.refl s.now s.now s.outputs
  unfold lcdcWrite
  dsimp only
  split
  · simp only [lcdEnable, schedule, setSrc_def, storeLY_def, emit, recompute_eq]
    exact (base.append (single_now _ _)).append (statEdge_now _)
  · split
    · simp only [lcdDisable, setSrc_def, storeLY_def, deschedule_def, log_def, lockSet_eq, recompute_eq, emit]
      split
      · exact ((base.append (single_now _ _)).append (lockChange_now _ _)).append (statEdge_now _)
      · exact (((base.append (single_now _ _)).append (single_now _ _)).append (lockChange_now _ _)).append
          (statEdge_now _)
    · exact base

theorem grows_lcdcWrite (v : Byte) (s : State) : Grows s (lcdcWrite v s) :=
  .of_now (by rw [lcdcWrite_frame]) (continues_lcdcWrite v s)

/-- RESET leaves the time, and puts out the release of the locks alone (rules R800, R801). -/
theorem grows_reset {s t : State} (h : execReset s = .next t) : Grows s t := by
  cases h
  refine .of_now rfl ?_
  rw [lockSet_eq]
  exact (Continues.refl ..).append (lockChange_now _ s)

theorem exec_grows {i : Instr} {s t : State} (hs : NotOverdue s) (h : exec i s = .next t) : Grows s t := by
  cases exec_effect h with
  | event e _ => exact (grows_fire e s).trans (grows_settle (fire_notOverdue e s))
  | advance n => exact grows_runUntil _ hs
  | hdma5 v => exact (grows_hdma5Write v s).trans (grows_settle (hdma5Write_notOverdue v hs))
  | lcdc v => exact grows_lcdcWrite v s
  | stat v => exact grows_recompute { s with statEn := statEnables v }
  | statDmg v =>
    exact (grows_recompute { s with statEn := 0b1111#4 }).trans
      (grows_recompute { recompute { s with statEn := 0b1111#4 } with statEn := statEnables v })
  | lyc v => exact grows_recompute { s with lyc := v }
  | reset h => exact grows_reset h
  | palette ctx v h => rw [h, capture_eq]; exact .of_same rfl rfl
  | colour _ h => rw [h]; exact .of_same rfl rfl
  | plain h => rw [h]; exact .of_same rfl rfl

theorem step_grows {s t : State} (hs : NotOverdue s) (h : step s = .next t) : Grows s t := by
  obtain ⟨i, hi⟩ | ⟨n, rfl⟩ | ht := step_cases h
  · exact exec_grows (s := takeInput s) hs hi
  · rw [elapse_eq]; exact grows_now (le_elapse_now n (takeInput s))
  · rw [ht]; exact .of_same rfl rfl

end Sys2Proof.Machine

/-! PROOFS. The statements of spec/00_scope.md. -/

namespace Sys2Proof.Proofs

open Sys2Proof.Machine

/-- Settles O58: each effect of an operation keeps the configuration, and touches a colour unit or a
capture only where the hardware has it. -/
theorem variantIsRespected : Obligations.VariantIsRespected := fun _ _ h => step_variantKept h

/-- Settles O59: of the invariant it takes only that the pending event is not overdue. -/
theorem timeAndHistoryOnlyGrow : Obligations.TimeAndHistoryOnlyGrow := by
  intro s t hinv h
  obtain ⟨-, -, -, -, hdue, -⟩ := hinv
  exact step_grows hdue h

/-- Settles O23: the start of a line at LY 0. -/
theorem lineZeroStart : Obligations.LineZeroStart := by
  intro s hp hc
  have hsrc : lineStartSrc { s with ly := 0, pending := none }
      = if s.cfg.line0OamSrc = true then .oam else .none := by simp [lineStartSrc]
  refine (exec_event_uncharged hp hc rfl).trans (congrArg Host.Outcome.next ?_)
  rw [handle, handleLine0Start, lineStart_eq, hsrc]
  rfl

/-- Settles O29: line 143's end is the entry to vertical blank, for LY moves on to 144. -/
theorem vblankEntry : Obligations.VblankEntry := by
  intro s hp hc hly
  have hnext : s.ly + 1 = 144 := by rw [hly]; rfl
  refine (exec_event_uncharged hp hc rfl).trans (congrArg Host.Outcome.next ?_)
  rw [handle, handleHblankEnd, if_pos hnext, vblankEntry_eq]
  simp only [hnext]
  rfl

end Sys2Proof.Proofs

/-! PROOFS. The DMA engine's invariant (rules R62, R67, R523): the address registers assemble block
boundaries, a block moves the addresses and the counter together. -/

namespace Sys2Proof.Machine

/-- The engine's flags and counter agree (rules R62, R523). -/
def CounterLegal (h : Hdma) : Prop :=
  (h.active = true → h.complete = false ∧ 1 ≤ h.rem) ∧ h.rem ≤ 128
  ∧ (h.paused = true → h.active = true) ∧ (h.active = false → h.complete = true)

/-- A source is on a block boundary. -/
def SrcLegal (a : Addr) : Prop := a.toNat % 16 = 0

/-- A destination is on a block boundary of the VRAM window. -/
def DstLegal (a : Addr) : Prop := 0x8000 ≤ a.toNat ∧ a.toNat ≤ 0x9FF0 ∧ a.toNat % 16 = 0

/-- The engine's two addresses are legal (rule R67). -/
def AddressesLegal (h : Hdma) : Prop := DstLegal h.dst ∧ SrcLegal h.src

/-- The invariant is of the counter and of the addresses, apart. -/
theorem hdmaLegal_iff (h : Hdma) : HdmaLegal h ↔ CounterLegal h ∧ AddressesLegal h := by
  simp only [HdmaLegal, CounterLegal, AddressesLegal, DstLegal, SrcLegal, and_assoc]

/-- The engine as reset leaves it (rule R801). -/
theorem hdmaLegal_reset : HdmaLegal ⟨0x0000, 0x8000, 0, false, false, true⟩ := by
  unfold HdmaLegal
  decide

/-! ## The address registers (rules R501 to R504) -/

theorem srcLegal_iff (a : Addr) : SrcLegal a ↔ a.extractLsb' 0 4 = 0#4 := by
  rw [SrcLegal, ← BitVec.toNat_inj, BitVec.extractLsb'_toNat]
  rfl

theorem dstLegal_iff (a : Addr) : DstLegal a ↔ a.extractLsb' 13 3 = 0b100#3 ∧ a.extractLsb' 0 4 = 0#4 := by
  rw [DstLegal, ← BitVec.toNat_inj, ← BitVec.toNat_inj, BitVec.extractLsb'_toNat, BitVec.extractLsb'_toNat]
  simp only [Nat.shiftRight_eq_div_pow, BitVec.toNat_ofNat]
  omega

/-- Folding out of the echo mirror clears bit 13 alone. -/
theorem srcLegal_echoFold {a : Addr} (h : SrcLegal a) : SrcLegal (echoFold a) := by
  unfold echoFold
  split
  · rw [srcLegal_iff] at h ⊢
    rw [BitVec.extractLsb'_and, h, BitVec.zero_and]
  · exact h

theorem hdmaSrcWrite_legal {a : Addr} (ha : SrcLegal a) {s : State} (h : HdmaLegal s.hdma) :
    HdmaLegal (hdmaSrcWrite a s).hdma := by
  obtain ⟨hcount, hdst, -⟩ := (hdmaLegal_iff _).mp h
  unfold hdmaSrcWrite
  split
  · exact (hdmaLegal_iff _).mpr ⟨hcount, hdst, srcLegal_echoFold ha⟩
  · exact h

theorem hdmaDstWrite_legal {a : Addr} (ha : DstLegal a) {s : State} (h : HdmaLegal s.hdma) :
    HdmaLegal (hdmaDstWrite a s).hdma := by
  obtain ⟨hcount, -, hsrc⟩ := (hdmaLegal_iff _).mp h
  unfold hdmaDstWrite
  split
  · exact (hdmaLegal_iff _).mpr ⟨hcount, ha, hsrc⟩
  · exact h

/-- A byte moved to the high half leaves the low four bits clear. -/
theorem highByte_low (x : Addr) : (x <<< 8).extractLsb' 0 4 = 0#4 := by
  ext i hi
  simp [show i < 8 by omega]

/-- Five bits moved to the high half leave the top three clear. -/
theorem highByte_top (x : Addr) : ((x &&& 31#16) <<< 8).extractLsb' 13 3 = 0#3 := by
  ext i hi
  interval_cases i <;> simp

/-- What WR.HDMA1 assembles. -/
theorem srcLegal_high (v : Byte) (a : Addr) : SrcLegal ((v.setWidth 16 <<< 8) ||| (a &&& 0x00F0#16)) := by
  rw [srcLegal_iff]
  simp [BitVec.extractLsb'_or, BitVec.extractLsb'_and, highByte_low]

/-- What WR.HDMA2 assembles. -/
theorem srcLegal_low (v : Byte) (a : Addr) :
    SrcLegal ((a &&& 0xFF00#16) ||| (v &&& 0xF0#8).setWidth 16) := by
  rw [srcLegal_iff]
  simp [BitVec.extractLsb'_or, BitVec.extractLsb'_and, BitVec.setWidth_and]

/-- What WR.HDMA3 assembles. -/
theorem dstLegal_high (v : Byte) (a : Addr) :
    DstLegal (0x8000#16 ||| ((v &&& 0x1F#8).setWidth 16 <<< 8) ||| (a &&& 0x00F0#16)) := by
  rw [dstLegal_iff]
  simp [BitVec.extractLsb'_or, BitVec.extractLsb'_and, BitVec.setWidth_and, highByte_low, highByte_top]

/-- What WR.HDMA4 assembles. -/
theorem dstLegal_low (v : Byte) {a : Addr} (h : DstLegal a) :
    DstLegal ((a &&& 0xFF00#16) ||| (v &&& 0xF0#8).setWidth 16) := by
  rw [dstLegal_iff] at h ⊢
  obtain ⟨hwindow, -⟩ := h
  simp [BitVec.extractLsb'_or, BitVec.extractLsb'_and, BitVec.setWidth_and, hwindow]

/-! ## The transfers (rules R505, R512, R513, R515) -/

theorem counterLegal_countBlock {h : Hdma} (hl : CounterLegal h) (ha : h.active = true)
    (hp : h.paused = false) : CounterLegal (countBlock h) := by
  obtain ⟨hact, hrem, -, -⟩ := hl
  obtain ⟨hcomplete, -⟩ := hact ha
  have hrem' : h.rem - 1 ≤ 128 := (Nat.sub_le _ _).trans hrem
  unfold countBlock
  split
  · exact ⟨nofun, hrem', fun h => (nomatch hp.symm.trans h), fun _ => rfl⟩
  · rename_i hleft
    exact ⟨fun _ => ⟨hcomplete, Nat.pos_of_ne_zero hleft⟩, hrem', fun _ => ha,
      fun h => (nomatch ha.symm.trans h)⟩

/-- Counting a block leaves the addresses. -/
theorem addressesLegal_countBlock {h : Hdma} (hl : AddressesLegal h) : AddressesLegal (countBlock h) := by
  unfold countBlock
  split <;> exact hl

/-- A block moves both addresses on to the next block. -/
theorem addressesLegal_nextBlock {h : Hdma} (hl : AddressesLegal h) :
    AddressesLegal { h with src := h.src + 16#16, dst := hdmaDstNext h.dst } := by
  obtain ⟨hdst, hsrc⟩ := hl
  exact ⟨hdmaDstNext_legal hdst, hdmaSrcNext_legal hsrc⟩

theorem addressesLegal_copyBlocks (n : Nat) {s : State} (h : AddressesLegal s.hdma) :
    AddressesLegal (copyBlocks n s).hdma := by
  induction n generalizing s with
  | zero => exact h
  | succ k ih =>
    refine ih ?_
    rw [copyBlock_eq]
    exact addressesLegal_nextBlock h

/-- A block of a transfer in progress. -/
theorem hdmaBlock_legal {s : State} (h : HdmaLegal s.hdma) (ha : s.hdma.active = true)
    (hp : s.hdma.paused = false) : HdmaLegal (hdmaBlock s).hdma := by
  obtain ⟨hcount, haddr⟩ := (hdmaLegal_iff _).mp h
  have hcount' : CounterLegal { s.hdma with src := s.hdma.src + 16#16, dst := hdmaDstNext s.hdma.dst } := hcount
  rw [hdmaBlock_eq]
  exact (hdmaLegal_iff _).mpr ⟨counterLegal_countBlock hcount' ha hp,
    addressesLegal_countBlock (addressesLegal_nextBlock haddr)⟩

theorem opportunity_legal {s : State} (h : HdmaLegal s.hdma) : HdmaLegal (hdmaHBlankOpportunity s).hdma := by
  unfold hdmaHBlankOpportunity
  split
  · rename_i hd
    simp only [hdmaDue, Bool.and_eq_true, Bool.not_eq_true'] at hd
    obtain ⟨⟨-, hactive⟩, hpaused⟩ := hd
    exact hdmaBlock_legal h hactive hpaused
  · exact h

/-- A general-purpose transfer ends complete, with nothing left. -/
theorem gdma_legal (n : Nat) {s : State} (h : HdmaLegal s.hdma) : HdmaLegal (gdma n s).hdma := by
  obtain ⟨-, haddr⟩ := (hdmaLegal_iff _).mp h
  have haddr' := addressesLegal_copyBlocks n
    (s := { s with hdma := { s.hdma with active := false, paused := false } }) haddr
  have hcount : CounterLegal (gdma n s).hdma := by
    rw [gdma_eq]
    exact ⟨nofun, Nat.zero_le _, nofun, fun _ => rfl⟩
  exact (hdmaLegal_iff _).mpr ⟨hcount, haddr'⟩

theorem hdmaBlocks_range (v : Byte) : 1 ≤ hdmaBlocks v ∧ hdmaBlocks v ≤ 128 := by
  have := (v.extractLsb' 0 7).isLt
  unfold hdmaBlocks
  omega

theorem hdmaArm_legal {n : Nat} (hn : 1 ≤ n ∧ n ≤ 128) {s : State} (h : HdmaLegal s.hdma) :
    HdmaLegal (hdmaArm n s).hdma := by
  obtain ⟨-, haddr⟩ := (hdmaLegal_iff _).mp h
  exact (hdmaLegal_iff _).mpr ⟨⟨fun _ => ⟨rfl, hn.1⟩, hn.2, fun _ => rfl, nofun⟩, haddr⟩

/-- A running transfer, paused. -/
theorem pause_legal {h : Hdma} (hl : HdmaLegal h) (ha : h.active = true) :
    HdmaLegal { h with paused := true } := by
  obtain ⟨⟨hact, hrem, -, hdone⟩, haddr⟩ := (hdmaLegal_iff _).mp hl
  exact (hdmaLegal_iff _).mpr ⟨⟨hact, hrem, fun _ => ha, hdone⟩, haddr⟩

/-- The five things a write to HDMA5 can do (rules R500, R505): be dropped, start a transfer without or
with its first block, pause one, or run a general-purpose transfer. -/
theorem hdma5Write_cases (v : Byte) (s : State) :
    hdma5Write v s = s
    ∨ hdma5Write v s = hdmaArm (hdmaBlocks v) s
    ∨ hdma5Write v s = hdmaBlock (hdmaArm (hdmaBlocks v) s)
    ∨ (s.hdma.active = true ∧ hdma5Write v s = { s with hdma := { s.hdma with paused := true } })
    ∨ hdma5Write v s = gdma (hdmaBlocks v) s := by
  unfold hdma5Write
  split
  · split
    · unfold hdmaStart
      dsimp only
      split
      · exact .inr (.inr (.inl rfl))
      · exact .inr (.inl rfl)
    · unfold hdmaPauseOrGdma
      split
      · rename_i hrun
        obtain ⟨hactive, -⟩ := Bool.and_eq_true_iff.mp hrun
        exact .inr (.inr (.inr (.inl ⟨hactive, rfl⟩)))
      · exact .inr (.inr (.inr (.inr rfl)))
  · exact .inl rfl

theorem hdma5Write_legal (v : Byte) {s : State} (h : HdmaLegal s.hdma) : HdmaLegal (hdma5Write v s).hdma := by
  have harm := hdmaArm_legal (hdmaBlocks_range v) h
  obtain heq | heq | heq | ⟨hactive, heq⟩ | heq := hdma5Write_cases v s <;> rw [heq]
  · exact h
  · exact harm
  · exact hdmaBlock_legal harm rfl rfl
  · exact pause_legal h hactive
  · exact gdma_legal _ h

end Sys2Proof.Machine

/-! PROOFS. What an operation does to the byte stores and the DMA engine, said once; from it, that both
stay legal (rules R57, R59, R523). -/

namespace Sys2Proof.Machine

/-- What an operation that lets no time pass leaves of the byte stores and the engine. -/
inductive StoreEffect (s : State) : State → Prop
  | kept {t : State} (hoam : t.oam = s.oam) (hvram : t.vram = s.vram) (hhdma : t.hdma = s.hdma) :
      StoreEffect s t
  | oamByte (off : Fin 160) (v : Byte) : StoreEffect s (oamSet off v s)
  | vramByte (b : Fin 2) (off : VOff) (v : Byte) : StoreEffect s (vramSet b off v s)
  | oamBatch (ws : List OamWrite) : StoreEffect s (ws.foldl oamBatchWrite s)
  | vramBatch (ws : List VramWrite) : StoreEffect s (ws.foldl vramBatchWrite s)
  | hdmaSrc {a : Addr} (ha : SrcLegal a) : StoreEffect s (hdmaSrcWrite a s)
  /-- the assembled address keeps a part of the old one -/
  | hdmaDst {a : Addr} (ha : DstLegal s.hdma.dst → DstLegal a) : StoreEffect s (hdmaDstWrite a s)
  | reset {t : State} (h : execReset s = .next t) : StoreEffect s t

theorem StoreEffect.unchanged {s : State} : StoreEffect s s := .kept rfl rfl rfl

/-- Inversion of `exec` for the stores and the engine; the last line is the operations that reach neither. -/
theorem exec_storeEffect {i : Instr} {s t : State} (h : exec i s = .next t) (hev : ∀ e : Event, i ≠ e.instr)
    (hadv : ∀ n, i ≠ .advance n) (h5 : ∀ v, i ≠ .wrHdma5 v) : StoreEffect s t := by
  have hevents : ∀ e ∈ Event.all, i ≠ e.instr := fun e _ => hev e
  cases i
  case evGlitchXfer | evGlitchHblank | evLine0Start | evOamCont | evXferStart | evHblankPre | evHblankStart
      | evHblankEnd | evVblankCont | evVblankLine | evL153Cont | evL153End | evL153FrameEnd =>
    exact absurd hevents (by decide)
  case advance n => exact absurd rfl (hadv n)
  case wrHdma5 v => exact absurd rfl (h5 v)
  case reset => exact .reset h
  case wrHdma1 v => cases h; exact .hdmaSrc (srcLegal_high v _)
  case wrHdma2 v => cases h; exact .hdmaSrc (srcLegal_low v _)
  case wrHdma3 v => cases h; exact .hdmaDst fun _ => dstLegal_high v _
  case wrHdma4 v => cases h; exact .hdmaDst (dstLegal_low v)
  case wrOam off v =>
    cases h
    split
    · exact .unchanged
    · exact .oamByte off v
  case wrVram off v =>
    cases h
    split
    · exact .unchanged
    · exact .vramByte _ off v
  case oamBatch ws =>
    simp only [exec, execOamBatch] at h
    split at h
    · cases h; exact .oamBatch ws
    · cases h
  case vramBatch ws =>
    simp only [exec, execVramBatch] at h
    split at h
    · cases h; exact .vramBatch ws
    · cases h
  case wrLcdc v => cases h; rw [lcdcWrite_frame]; exact .kept rfl rfl rfl
  case wrStat v | wrStatDmg v | wrLyc v => cases h; simp only [recompute_eq]; exact .kept rfl rfl rfl
  case wrBgp v | wrObp0 v | wrObp1 v => cases h; rw [capture_eq]; exact .kept rfl rfl rfl
  case wrBcps v | wrBcpd v | wrOcps v | wrOcpd v =>
    cases h
    split
    · exact .kept rfl rfl rfl
    · exact .unchanged
  all_goals cases h; exact .kept rfl rfl rfl

theorem StoreEffect.hdmaLegal {s t : State} (h : StoreEffect s t) (hs : HdmaLegal s.hdma) :
    HdmaLegal t.hdma := by
  cases h with
  | kept _ _ hhdma => rw [hhdma]; exact hs
  | oamByte | vramByte => exact hs
  | oamBatch ws => rw [oamBatch_frame]; exact hs
  | vramBatch ws => rw [vramBatch_frame]; exact hs
  | hdmaSrc ha => exact hdmaSrcWrite_legal ha hs
  | hdmaDst ha =>
    obtain ⟨-, hdst, -⟩ := (hdmaLegal_iff _).mp hs
    exact hdmaDstWrite_legal (ha hdst) hs
  | reset h =>
    cases h
    exact hdmaLegal_reset

/-! ## The canonical form of the stores -/

theorem oamSet_canonical (off : Fin 160) (v : Byte) {s : State} (hs : MemoryCanonical s) :
    MemoryCanonical (oamSet off v s) := by
  obtain ⟨hoam, hvram⟩ := hs
  exact ⟨Memory.wf_write v hoam off.isLt, hvram⟩

theorem vramSet_canonical (b : Fin 2) (off : VOff) (v : Byte) {s : State} (hs : MemoryCanonical s) :
    MemoryCanonical (vramSet b off v s) := by
  obtain ⟨hoam, hvram⟩ := hs
  exact ⟨hoam, Memory.wf_write v hvram (vramKey_lt b off)⟩

theorem oamBatch_canonical (ws : List OamWrite) {s : State} (hs : MemoryCanonical s) :
    MemoryCanonical (ws.foldl oamBatchWrite s) := by
  refine List.foldlRecOn ws oamBatchWrite hs fun u hu w _ => ?_
  unfold oamBatchWrite
  split
  · exact oamSet_canonical _ _ hu
  · exact hu

theorem vramBatch_canonical (ws : List VramWrite) {s : State} (hs : MemoryCanonical s) :
    MemoryCanonical (ws.foldl vramBatchWrite s) :=
  List.foldlRecOn ws vramBatchWrite hs fun _ hu _ _ => vramSet_canonical _ _ _ hu

theorem StoreEffect.canonical {s t : State} (h : StoreEffect s t) (hs : MemoryCanonical s) :
    MemoryCanonical t := by
  cases h with
  | kept hoam hvram _ => unfold MemoryCanonical; rw [hoam, hvram]; exact hs
  | oamByte off v => exact oamSet_canonical off v hs
  | vramByte b off v => exact vramSet_canonical b off v hs
  | oamBatch ws => exact oamBatch_canonical ws hs
  | vramBatch ws => exact vramBatch_canonical ws hs
  | hdmaSrc => unfold hdmaSrcWrite; split <;> exact hs
  | hdmaDst => unfold hdmaDstWrite; split <;> exact hs
  | reset h => cases h; exact ⟨Memory.wf_nil _, Memory.wf_nil _⟩

theorem fire_canonical (e : Event) {s : State} (hs : MemoryCanonical s) : MemoryCanonical (fire e s) := by
  obtain ⟨hoam, hvram⟩ := hs
  have hoam' : (fire e s).oam = s.oam := by rw [fire_frame]
  exact ⟨hoam' ▸ hoam, fire_vram_wf e hvram⟩

theorem hdmaBlock_vram_wf {s : State} (h : Memory.wf 0x4000 s.vram = true) :
    Memory.wf 0x4000 (hdmaBlock s).vram = true := by
  rw [hdmaBlock_eq]
  dsimp only
  exact copyBlock_wf h

theorem hdma5Write_canonical (v : Byte) {s : State} (hs : MemoryCanonical s) :
    MemoryCanonical (hdma5Write v s) := by
  obtain ⟨hoam, hvram⟩ := hs
  have hoam' : (hdma5Write v s).oam = s.oam := by rw [hdma5Write_frame]
  refine ⟨hoam' ▸ hoam, ?_⟩
  obtain heq | heq | heq | ⟨-, heq⟩ | heq := hdma5Write_cases v s <;> rw [heq]
  · exact hvram
  · exact hvram
  · exact hdmaBlock_vram_wf (s := hdmaArm (hdmaBlocks v) s) hvram
  · exact hvram
  · exact gdma_wf _ hvram

theorem exec_canonical {i : Instr} {s t : State} (hs : MemoryCanonical s) (h : exec i s = .next t) :
    MemoryCanonical t :=
  exec_preserves (fun _ e hs _ => fire_canonical e hs) (fun _ _ => id) (fun _ _ => id) hs h
    (fun v => hdma5Write_canonical v hs) fun hev hadv h5 => (exec_storeEffect h hev hadv h5).canonical hs

theorem step_canonical {s t : State} (hs : MemoryCanonical s) (h : step s = .next t) : MemoryCanonical t := by
  obtain ⟨i, hi⟩ | ⟨n, rfl⟩ | ht := step_cases h
  · exact exec_canonical (s := takeInput s) hs hi
  · rw [elapse_eq]; exact hs
  · rw [ht]; exact hs

end Sys2Proof.Machine

/-! PROOFS. The timeline of the phase controller: what its rows say of LY, the comparison value and the
phase, and that every event leads from its row to the next (rules R230, R256, R261, R262). -/

namespace Sys2Proof.Machine

/-- The LCD-off state of the timeline (rule R712). -/
theorem timeline_idle {s : State} (hp : s.pending = none) :
    Timeline s ↔ lcdOn s = false ∧ s.phase = .off ∧ s.mode = .hblank ∧ s.src = .none ∧ s.ly = 0
      ∧ s.locks = Locks.open := by
  simp only [Timeline, hp]

theorem timeline_pending {s : State} {e : Event} {due : Nat} (hp : s.pending = some (e, due)) :
    Timeline s ↔ lcdOn s = true ∧ TimelineAt s e := by
  simp only [Timeline, hp]

/-- On the timeline LY is a line number. -/
theorem TimelineAt.line_le {s : State} {e : Event} (h : TimelineAt s e) : s.ly.toNat ≤ 153 := by
  cases e
  case glitchXfer | glitchHblank | line0Start | l153Cont | l153End | l153FrameEnd =>
    obtain ⟨-, hly⟩ := h
    rw [hly]
    decide
  case oamCont | xferStart | hblankPre | hblankStart | hblankEnd =>
    obtain ⟨-, hline⟩ := h
    exact hline.trans (by decide)
  case vblankCont =>
    obtain ⟨-, hly⟩ | ⟨-, -, hlast⟩ := h
    · rw [hly]
      decide
    · exact hlast.trans (by decide)
  case vblankLine =>
    obtain ⟨-, -, hlast⟩ := h
    exact hlast.trans (by decide)

/-- On the timeline the comparison value is LY where there is one. -/
theorem TimelineAt.cmp_eq {s : State} {e : Event} (h : TimelineAt s e) : s.cmp = none ∨ s.cmp = some s.ly := by
  cases e
  case glitchXfer | glitchHblank | l153Cont | l153FrameEnd =>
    obtain ⟨⟨-, -, -, hcmp, -⟩, -⟩ := h
    exact .inl hcmp
  case xferStart | hblankPre | hblankStart | hblankEnd | vblankLine =>
    obtain ⟨⟨-, -, -, hcmp, -⟩, -⟩ := h
    exact .inr hcmp
  case l153End =>
    obtain ⟨⟨-, -, -, hcmp, -⟩, hly⟩ := h
    exact .inr (hly ▸ hcmp)
  case line0Start =>
    obtain ⟨⟨-, -, -, hcmp, -⟩ | ⟨-, -, -, hcmp, -⟩, hly⟩ := h
    · exact .inl hcmp
    · exact .inr (hly ▸ hcmp)
  case oamCont =>
    obtain ⟨⟨-, -, -, hcmp, -⟩ | ⟨⟨-, -, -, hcmp, -⟩, -⟩, -⟩ := h
    · exact .inl hcmp
    · exact .inl hcmp
  case vblankCont =>
    obtain ⟨⟨-, -, -, hcmp, -⟩, -⟩ | ⟨⟨-, -, -, hcmp, -⟩, -⟩ := h
    · exact .inl hcmp
    · exact .inl hcmp

theorem TimelineAt.cmpLegal {s : State} {e : Event} (h : TimelineAt s e) : CmpLegal s := by
  intro c hc
  obtain hnone | hly := h.cmp_eq
  · cases hnone.symm.trans hc
  · cases hly.symm.trans hc
    exact h.line_le

/-- An event is pending only while the LCD is on. -/
theorem TimelineAt.phase_ne_off {s : State} {e : Event} (h : TimelineAt s e) : s.phase ≠ .off := by
  cases e
  case glitchXfer | glitchHblank | xferStart | hblankPre | hblankStart | hblankEnd | vblankLine | l153Cont
      | l153End | l153FrameEnd =>
    obtain ⟨⟨hphase, -⟩, -⟩ := h
    rw [hphase]
    decide
  case line0Start =>
    obtain ⟨⟨hphase, -⟩ | ⟨hphase, -⟩, -⟩ := h <;> rw [hphase] <;> decide
  case oamCont =>
    obtain ⟨⟨hphase, -⟩ | ⟨⟨hphase, -⟩, -⟩, -⟩ := h <;> rw [hphase] <;> decide
  case vblankCont =>
    obtain ⟨⟨hphase, -⟩, -⟩ | ⟨⟨hphase, -⟩, -⟩ := h <;> rw [hphase] <;> decide

/-- The line counter's step, short of its wrap. -/
theorem byte_succ {b : Byte} (hb : b.toNat < 255) : (b + 1).toNat = b.toNat + 1 := by
  bv_omega

/-- A line that is not the last has its successor in the range. -/
theorem nextLine_le {b : Byte} {n : Nat} (hb : b.toNat ≤ n) (hn : n < 255)
    (hne : b + 1 ≠ BitVec.ofNat 8 (n + 1)) : (b + 1).toNat ≤ n := by
  have hsucc := byte_succ (hb.trans_lt hn)
  have : (b + 1).toNat ≠ n + 1 := fun h => hne (by rw [← h, BitVec.ofNat_toNat, BitVec.setWidth_eq])
  omega

/-! ## Firing an event -/

/-- The scroll penalty's table (rule R52). -/
theorem scrollPenalty_eq (scx : Byte) :
    scrollPenalty scx = if scx.toNat % 8 = 0 then 0 else if scx.toNat % 8 ≤ 4 then 4 else 8 := by
  have table : ∀ r < 8, (r + 3) &&& 0xFC = if r = 0 then 0 else if r ≤ 4 then 4 else 8 := by decide
  exact table _ (Nat.mod_lt _ (by decide))

theorem penaltyLegal_of_scroll {s : State} (h : s.penalty = scrollPenalty s.scx) : PenaltyLegal s := by
  unfold PenaltyLegal
  rw [h, scrollPenalty_eq]
  split
  · exact .inl rfl
  · split
    · exact .inr (.inl rfl)
    · exact .inr (.inr rfl)

/-- Each handler leads to the next row of the timeline (rules R230, R256, R261, R262), samples the penalty
or leaves it, and copies a block or leaves the engine. -/
theorem fire_nextRow {e : Event} {s : State} (ht : TimelineAt s e) (hp : PenaltyLegal s)
    (hh : HdmaLegal s.hdma) :
    TimelineAt (fire e s) (nextEvent e s) ∧ PenaltyLegal (fire e s) ∧ HdmaLegal (fire e s).hdma := by
  cases e <;> simp only [fire, handle]
  case glitchXfer =>
    obtain ⟨⟨-, -, hsrc, hcmp, -⟩, hly⟩ := ht
    simp only [handleGlitchXfer, schedule, lockSet_eq]
    exact ⟨⟨⟨rfl, rfl, hsrc, hcmp, rfl⟩, hly⟩, hp, hh⟩
  case glitchHblank =>
    obtain ⟨⟨-, -, -, hcmp, -⟩, hly⟩ := ht
    simp only [handleGlitchHblank, schedule, setSrc_def, lockSet_eq, recompute_eq]
    rw [opportunity_eq]
    exact ⟨⟨.inl ⟨rfl, rfl, rfl, hcmp, rfl⟩, hly⟩, hp, opportunity_legal hh⟩
  case line0Start =>
    rw [handleLine0Start, lineStart_eq]
    obtain ⟨⟨-, hmode, -⟩ | ⟨-, hmode, -⟩, -⟩ := ht
    · exact ⟨⟨.inl ⟨rfl, hmode, rfl, rfl, rfl⟩, Nat.zero_le _⟩, hp, hh⟩
    · exact ⟨⟨.inr ⟨⟨rfl, hmode, rfl, rfl, rfl⟩, rfl⟩, Nat.zero_le _⟩, hp, hh⟩
  case oamCont =>
    simp only [handleOamCont, schedule, setCmp_def, lockSet_eq, recompute_eq]
    obtain ⟨⟨hphase, -, hsrc, -⟩ | ⟨⟨hphase, -, hsrc, -⟩, -⟩, hline⟩ := ht
    · exact ⟨⟨⟨hphase, rfl, hsrc, rfl, rfl⟩, hline⟩, hp, hh⟩
    · exact ⟨⟨⟨hphase, rfl, hsrc, rfl, rfl⟩, hline⟩, hp, hh⟩
  case xferStart =>
    obtain ⟨⟨-, -, -, hcmp, -⟩, hline⟩ := ht
    simp only [handleXferStart, schedule, setSrc_def, lockSet_eq, recompute_eq]
    exact ⟨⟨⟨rfl, rfl, rfl, hcmp, rfl⟩, hline⟩, penaltyLegal_of_scroll rfl, hh⟩
  case hblankPre =>
    obtain ⟨⟨hphase, hmode, -, hcmp, hlocks⟩, hline⟩ := ht
    simp only [handleHblankPre, schedule, setSrc_def, recompute_eq]
    exact ⟨⟨⟨hphase, hmode, rfl, hcmp, hlocks⟩, hline⟩, hp, hh⟩
  case hblankStart =>
    obtain ⟨⟨-, -, hsrc, hcmp, -⟩, hline⟩ := ht
    simp only [handleHblankStart, schedule, composeLine, lockSet_eq]
    rw [opportunity_eq]
    exact ⟨⟨⟨rfl, rfl, hsrc, hcmp, rfl⟩, hline⟩, hp, opportunity_legal hh⟩
  case hblankEnd =>
    obtain ⟨⟨-, hmode, -, -, hlocks⟩, hline⟩ := ht
    simp only [handleHblankEnd, nextEvent]
    by_cases h : s.ly + 1 = 144
    · rw [if_pos h, if_pos h, vblankEntry_eq]
      exact ⟨.inl ⟨⟨rfl, hmode, rfl, rfl, hlocks⟩, h⟩, hp, hh⟩
    · rw [if_neg h, if_neg h, lineStart_eq]
      exact ⟨⟨.inl ⟨rfl, hmode, rfl, rfl, rfl⟩, nextLine_le hline (by decide) h⟩, hp, hh⟩
  case vblankCont =>
    simp only [handleVblankCont, schedule, setSrc_def, recompute_eq]
    rw [vblankAtCont_eq]
    obtain ⟨⟨hphase, -, -, -, hlocks⟩, hly⟩ | ⟨⟨hphase, -, -, -, hlocks⟩, hfirst, hlast⟩ := ht
    · exact ⟨⟨⟨hphase, rfl, rfl, rfl, hlocks⟩, by simp [hly]⟩, hp, hh⟩
    · exact ⟨⟨⟨hphase, rfl, rfl, rfl, hlocks⟩, Nat.le_of_succ_le hfirst, hlast⟩, hp, hh⟩
  case vblankLine =>
    obtain ⟨⟨hphase, hmode, hsrc, -, hlocks⟩, hfirst, hlast⟩ := ht
    simp only [handleVblankLine, nextEvent]
    by_cases h : s.ly + 1 = 153
    · rw [if_pos h, if_pos h]
      simp only [line153Start, schedule, setCmp_def, setLY_def, emit, recompute_eq]
      exact ⟨⟨⟨rfl, hmode, hsrc, rfl, hlocks⟩, h⟩, hp, hh⟩
    · have hfirst' : 145 ≤ (s.ly + 1).toNat := by
        rw [byte_succ (hlast.trans_lt (by decide))]
        exact Nat.succ_le_succ hfirst
      rw [if_neg h, if_neg h]
      simp only [schedule, setCmp_def, setLY_def, emit, recompute_eq]
      exact ⟨.inr ⟨⟨hphase, hmode, hsrc, rfl, hlocks⟩, hfirst', nextLine_le hlast (by decide) h⟩, hp, hh⟩
  case l153Cont =>
    obtain ⟨⟨hphase, hmode, hsrc, -, hlocks⟩, hly⟩ := ht
    simp only [handleL153Cont, schedule, setCmp_def, recompute_eq]
    exact ⟨⟨⟨hphase, hmode, hsrc, rfl, hlocks⟩, hly⟩, hp, hh⟩
  case l153End =>
    obtain ⟨⟨hphase, hmode, hsrc, -, hlocks⟩, -⟩ := ht
    simp only [handleL153End, schedule, setCmp_def, storeLY_def, emit, recompute_eq]
    exact ⟨⟨⟨hphase, hmode, hsrc, rfl, hlocks⟩, rfl⟩, hp, hh⟩
  case l153FrameEnd =>
    obtain ⟨⟨hphase, hmode, hsrc, -, hlocks⟩, hly⟩ := ht
    simp only [handleL153FrameEnd, schedule, setCmp_def, recompute_eq]
    exact ⟨⟨.inr ⟨hphase, hmode, hsrc, rfl, hlocks⟩, hly⟩, hp, hh⟩

end Sys2Proof.Machine

/-! PROOFS. LCD enable and disable as one record update each, and the invariant over operations and
steps (rules R220, R221, R224, R231). -/

namespace Sys2Proof.Machine

/-! ## LCD enable and disable -/

/-- A write that turns the LCD on. -/
theorem lcdcWrite_enable {v : Byte} {s : State} (hs : lcdOn s = false) (hv : v.getLsbD 7 = true) :
    lcdcWrite v s = lcdEnable { s with lcdc := v } := by
  simp [lcdcWrite, hs, show lcdOn { s with lcdc := v } = true from hv]

/-- A write that turns the LCD off. -/
theorem lcdcWrite_disable {v : Byte} {s : State} (hs : lcdOn s = true) (hv : v.getLsbD 7 = false) :
    lcdcWrite v s = lcdDisable { s with lcdc := v } := by
  simp [lcdcWrite, hs, show lcdOn { s with lcdc := v } = false from hv]

/-- A write that leaves bit 7 alone. -/
theorem lcdcWrite_same {v : Byte} {s : State} (h : v.getLsbD 7 = lcdOn s) :
    lcdcWrite v s = { s with lcdc := v } := by
  cases hs : lcdOn s <;> simp [lcdcWrite, hs, show lcdOn { s with lcdc := v } = lcdOn s from h]

/-- The three things a write to LCDC can do (rule R220). -/
theorem lcdcWrite_cases (v : Byte) (s : State) :
    (v.getLsbD 7 = lcdOn s ∧ lcdcWrite v s = { s with lcdc := v })
    ∨ (lcdOn s = false ∧ v.getLsbD 7 = true ∧ lcdcWrite v s = lcdEnable { s with lcdc := v })
    ∨ (lcdOn s = true ∧ v.getLsbD 7 = false ∧ lcdcWrite v s = lcdDisable { s with lcdc := v }) := by
  cases hs : lcdOn s <;> cases hv : v.getLsbD 7
  · exact .inl ⟨rfl, lcdcWrite_same (hv.trans hs.symm)⟩
  · exact .inr (.inl ⟨rfl, rfl, lcdcWrite_enable hs hv⟩)
  · exact .inr (.inr ⟨rfl, rfl, lcdcWrite_disable hs hv⟩)
  · exact .inl ⟨rfl, lcdcWrite_same (hv.trans hs.symm)⟩

/-- Without a source and a comparison value no STAT source is true. -/
theorem statSources_none {s : State} (hsrc : s.src = .none) (hcmp : s.cmp = none) : statSources s = false := by
  simp [statSources, lycMatch, hsrc, hcmp]

/-- LCD enable as one record update (rule R224): with nothing to compare, no STAT request. -/
theorem lcdEnable_eq (s : State) :
    lcdEnable s = { s with
      ly := 0
      cmp := none
      src := .none
      statLine := false
      outputs := s.outputs ++ [(s.now, .setLy 0)]
      phase := .glitchWait
      firstFrame := true
      windowLine := 0
      pending := some (.glitchXfer, s.now + 76) } := by
  have hquiet := statSources_none (s := { s with
    ly := 0, outputs := s.outputs ++ [(s.now, .setLy 0)], cmp := none, src := .none }) rfl rfl
  simp only [lcdEnable, setSrc_def, storeLY_def, emit, recompute_eq, schedule, statEdge, hquiet]
  simp

/-- LCD disable as one record update (rule R221). -/
theorem lcdDisable_eq (s : State) :
    let t := { s with src := .none }
    lcdDisable s = { t with
      mode := .hblank
      phase := .off
      pending := none
      ly := 0
      locks := Locks.open
      statLine := statSources t
      outputs := s.outputs
        ++ (if inVblank s.phase then [] else [(s.now, .log .lcdDisabledOutsideVblank)])
        ++ [(s.now, .setLy 0)] ++ lockChange Locks.open s ++ statEdge t } := by
  simp only [lcdDisable, setSrc_def, storeLY_def, deschedule_def, lockSet_eq, recompute_eq, emit, log_def]
  split
  · rw [List.append_nil]
    rfl
  · rfl

/-- With the LCD off no event is pending. -/
theorem Timeline.pending_of_lcdOff {s : State} (h : Timeline s) (hoff : lcdOn s = false) :
    s.pending = none := by
  cases hp : s.pending with
  | none => rfl
  | some p =>
    obtain ⟨hon, -⟩ := (timeline_pending hp).mp h
    exact absurd (hon.symm.trans hoff) (by decide)

/-- The write to LCDC keeps the timeline: it enters the glitched line, the LCD-off state, or neither. -/
theorem lcdcWrite_timeline (v : Byte) {s : State} (h : Timeline s) :
    Timeline (lcdcWrite v s) := by
  obtain ⟨hv, heq⟩ | ⟨hoff, hv, heq⟩ | ⟨-, hv, heq⟩ := lcdcWrite_cases v s
  · rw [heq]
    cases hp : s.pending with
    | none =>
      obtain ⟨hoff, hidle⟩ := (timeline_idle hp).mp h
      exact ⟨hv.trans hoff, hidle⟩
    | some p =>
      obtain ⟨hon, hat⟩ := (timeline_pending hp).mp h
      exact ⟨hv.trans hon, hat⟩
  · obtain ⟨-, -, hmode, -, -, hlocks⟩ := (timeline_idle (h.pending_of_lcdOff hoff)).mp h
    rw [heq, lcdEnable_eq]
    exact ⟨hv, ⟨rfl, hmode, rfl, rfl, hlocks⟩, rfl⟩
  · rw [heq, lcdDisable_eq]
    exact ⟨hv, rfl, rfl, rfl, rfl, rfl⟩

/-- LCD disable freezes the comparison value (rule R221), enable clears it. -/
theorem lcdcWrite_cmpLegal (v : Byte) {s : State} (h : CmpLegal s) : CmpLegal (lcdcWrite v s) := by
  obtain ⟨-, heq⟩ | ⟨-, -, heq⟩ | ⟨-, -, heq⟩ := lcdcWrite_cases v s
  · rw [heq]
    exact h
  · rw [heq, lcdEnable_eq]
    exact nofun
  · rw [heq, lcdDisable_eq]
    exact h

/-- An event that the write to LCDC schedules is not overdue. -/
theorem lcdcWrite_notOverdue (v : Byte) {s : State} (h : NotOverdue s) : NotOverdue (lcdcWrite v s) := by
  obtain ⟨-, heq⟩ | ⟨-, -, heq⟩ | ⟨-, -, heq⟩ := lcdcWrite_cases v s
  · rw [heq]
    exact h
  · rw [heq, lcdEnable_eq]
    rintro e due ⟨⟩
    exact Nat.le_add_right _ _
  · rw [heq, lcdDisable_eq]
    exact nofun

/-! ## The invariant -/

/-- What the invariant says of the block, whatever the time and the charge. -/
def OnTimeline (s : State) : Prop := Timeline s ∧ CmpLegal s ∧ PenaltyLegal s ∧ HdmaLegal s.hdma

/-- What it says of the time and the charge. -/
def Settled (s : State) : Prop := NotOverdue s ∧ s.charge = 0

theorem inv_iff (s : State) : Inv s ↔ OnTimeline s ∧ Settled s := by
  simp only [Inv, OnTimeline, Settled, and_assoc]

theorem fire_onTimeline {e : Event} {due : Nat} {s : State} (h : OnTimeline s)
    (hp : s.pending = some (e, due)) : OnTimeline (fire e s) := by
  obtain ⟨ht, -, hpen, hh⟩ := h
  obtain ⟨hon, hat⟩ := (timeline_pending hp).mp ht
  obtain ⟨hat', hpen', hh'⟩ := fire_nextRow hat hpen hh
  obtain ⟨hp', -⟩ := fire_sequence e s
  have hon' : lcdOn (fire e s) = true := by rw [fire_frame]; exact hon
  exact ⟨(timeline_pending hp').mpr ⟨hon', hat'⟩, hat'.cmpLegal, hpen', hh'⟩

theorem hdma5Write_onTimeline (v : Byte) {s : State} (h : OnTimeline s) : OnTimeline (hdma5Write v s) := by
  obtain ⟨ht, hcmp, hpen, hh⟩ := h
  have hh' := hdma5Write_legal v hh
  refine ⟨?_, ?_, ?_, hh'⟩ <;> rw [hdma5Write_frame] <;> assumption

/-- An operation that lets no time pass keeps the timeline, the comparison value and the penalty. -/
theorem ExecEffect.onTimeline {i : Instr} {s t : State} (h : ExecEffect i s t) (hev : ∀ e : Event, i ≠ e.instr)
    (hadv : ∀ n, i ≠ .advance n) (h5 : ∀ v, i ≠ .wrHdma5 v) (hs : OnTimeline s) :
    Timeline t ∧ CmpLegal t ∧ PenaltyLegal t := by
  obtain ⟨ht, hcmp, hpen, -⟩ := hs
  cases h with
  | event e => exact absurd rfl (hev e)
  | advance n => exact absurd rfl (hadv n)
  | hdma5 v => exact absurd rfl (h5 v)
  | lcdc v =>
    have hpen' : PenaltyLegal (lcdcWrite v s) := by rw [lcdcWrite_frame]; exact hpen
    exact ⟨lcdcWrite_timeline v ht, lcdcWrite_cmpLegal v hcmp, hpen'⟩
  | stat | statDmg | lyc => simp only [recompute_eq]; exact ⟨ht, hcmp, hpen⟩
  | reset h => cases h; exact ⟨⟨BitVec.getLsbD_zero, rfl, rfl, rfl, rfl, rfl⟩, nofun, .inl rfl⟩
  | palette ctx v h => rw [h, capture_eq]; exact ⟨ht, hcmp, hpen⟩
  | colour _ h => rw [h]; exact ⟨ht, hcmp, hpen⟩
  | plain h => rw [h]; exact ⟨ht, hcmp, hpen⟩

theorem exec_onTimeline {i : Instr} {s t : State} (hs : OnTimeline s) (h : exec i s = .next t) :
    OnTimeline t := by
  refine exec_preserves (fun _ _ hs hp => fire_onTimeline hs hp) (fun _ _ => id) (fun _ _ => id) hs h
    (fun v => hdma5Write_onTimeline v hs) fun hev hadv h5 => ?_
  obtain ⟨ht, hcmp, hpen⟩ := (exec_effect h).onTimeline hev hadv h5 hs
  obtain ⟨-, -, -, hh⟩ := hs
  exact ⟨ht, hcmp, hpen, (exec_storeEffect h hev hadv h5).hdmaLegal hh⟩

/-- What the passage of time leaves is settled. -/
theorem runUntil_settled {target : Nat} {s : State} (hn : s.now ≤ target) : Settled (runUntil target s) := by
  obtain ⟨-, hcharge, hdue⟩ := runUntil_done target s hn
  exact ⟨fun e due hp => (hdue e due hp).le, hcharge⟩

theorem settle_settled {s : State} (h : NotOverdue s) : Settled (settle s) := by
  unfold settle
  split
  · rename_i hc
    exact ⟨h, hc⟩
  · exact runUntil_settled (Nat.le_add_right _ _)

theorem exec_settled {i : Instr} {s t : State} (hs : Settled s) (h : exec i s = .next t) : Settled t := by
  obtain ⟨hdue, hcharge⟩ := hs
  cases exec_effect h with
  | event e => exact settle_settled (fire_notOverdue e s)
  | advance n => exact runUntil_settled (Nat.le_add_right _ _)
  | hdma5 v => exact settle_settled (hdma5Write_notOverdue v hdue)
  | lcdc v =>
    have hcharge' : (lcdcWrite v s).charge = 0 := by rw [lcdcWrite_frame]; exact hcharge
    exact ⟨lcdcWrite_notOverdue v hdue, hcharge'⟩
  | stat | statDmg | lyc => simp only [recompute_eq]; exact ⟨hdue, hcharge⟩
  | reset h => cases h; exact ⟨nofun, hcharge⟩
  | palette ctx v h => rw [h, capture_eq]; exact ⟨hdue, hcharge⟩
  | colour _ h => rw [h]; exact ⟨hdue, hcharge⟩
  | plain h => rw [h]; exact ⟨hdue, hcharge⟩

/-- Time that passes by itself stops at the pending event. -/
theorem elapse_settled (n : Nat) {s : State} (h : Settled s) : Settled (elapse n s) := by
  obtain ⟨hdue, hcharge⟩ := h
  unfold elapse
  split
  · rename_i e due hp
    refine ⟨fun e' due' hp' => ?_, hcharge⟩
    cases hp.symm.trans hp'
    exact max_le (hdue e due hp) (Nat.min_le_right _ _)
  · rename_i hp
    exact ⟨fun _ _ hp' => (nomatch hp.symm.trans hp'), hcharge⟩

theorem step_inv {s t : State} (hs : Inv s) (h : step s = .next t) : Inv t := by
  obtain ⟨hline, hset⟩ := (inv_iff s).mp hs
  obtain ⟨i, hi⟩ | ⟨n, rfl⟩ | ht := step_cases h
  · exact (inv_iff t).mpr
      ⟨exec_onTimeline (s := takeInput s) hline hi, exec_settled (s := takeInput s) hset hi⟩
  · refine (inv_iff _).mpr ⟨?_, elapse_settled n (s := takeInput s) hset⟩
    rw [elapse_eq]
    exact hline
  · rw [ht]
    exact hs

end Sys2Proof.Machine

/-! PROOFS. The ranges of the state (rule R67), and the LCD-off state: which outputs an operation can add
there (rule R712, assumption 20). -/

namespace Sys2Proof.Machine

/-! ## The state's ranges -/

/-- The LCD is off exactly while no event is pending. -/
theorem Timeline.pending_none_iff {s : State} (h : Timeline s) : s.pending = none ↔ lcdOn s = false := by
  refine ⟨fun hp => ?_, h.pending_of_lcdOff⟩
  obtain ⟨hoff, -⟩ := (timeline_idle hp).mp h
  exact hoff

theorem Timeline.pending_none_iff_phase {s : State} (h : Timeline s) : s.pending = none ↔ s.phase = .off := by
  cases hp : s.pending with
  | none =>
    obtain ⟨-, hphase, -⟩ := (timeline_idle hp).mp h
    exact iff_of_true rfl hphase
  | some p =>
    obtain ⟨-, hat⟩ := (timeline_pending hp).mp h
    exact iff_of_false nofun hat.phase_ne_off

theorem Timeline.line_le {s : State} (h : Timeline s) : s.ly.toNat ≤ 153 := by
  cases hp : s.pending with
  | none =>
    obtain ⟨-, -, -, -, hly, -⟩ := (timeline_idle hp).mp h
    rw [hly]
    decide
  | some p =>
    obtain ⟨-, hat⟩ := (timeline_pending hp).mp h
    exact hat.line_le

/-! ## The LCD-off state -/

/-- The history goes on without a VBlank request, and with a STAT request only under a condition. -/
def RequestsOnlyIf (c : Prop) (old new : List (Nat × Output)) : Prop :=
  ∃ added, new = old ++ added ∧ ∀ r ∈ added, r.2 ≠ .irqVblank ∧ (r.2 = .irqStat → c)

theorem RequestsOnlyIf.refl (c : Prop) (old : List (Nat × Output)) : RequestsOnlyIf c old old :=
  ⟨[], (List.append_nil old).symm, nofun⟩

theorem RequestsOnlyIf.trans {c : Prop} {x y z : List (Nat × Output)} (h : RequestsOnlyIf c x y)
    (g : RequestsOnlyIf c y z) : RequestsOnlyIf c x z := by
  obtain ⟨l, rfl, hl⟩ := h
  obtain ⟨m, rfl, hm⟩ := g
  exact ⟨l ++ m, List.append_assoc .., fun r hr => (List.mem_append.mp hr).elim (hl r) (hm r)⟩

/-- An output that is no request. -/
theorem requestsOnlyIf_single {c : Prop} {old : List (Nat × Output)} {n : Nat} {o : Output}
    (hv : o ≠ .irqVblank) (hs : o ≠ .irqStat) : RequestsOnlyIf c old (old ++ [(n, o)]) := by
  refine ⟨[(n, o)], rfl, fun r hr => ?_⟩
  obtain rfl := List.mem_singleton.mp hr
  exact ⟨hv, fun h => absurd h hs⟩

theorem requestsOnlyIf_locks {c : Prop} {old : List (Nat × Output)} (l : Locks) (s : State) :
    RequestsOnlyIf c old (old ++ lockChange l s) := by
  unfold lockChange
  split
  · rw [List.append_nil]
    exact .refl ..
  · exact requestsOnlyIf_single nofun nofun

/-- With no source pending, LY=LYC is the one source that can be true (rule R210). -/
theorem statSources_of_src_none {s : State} (h : s.src = .none) :
    statSources s = true ↔ s.statEn.getLsbD 3 = true ∧ s.cmp = some s.lyc := by
  simp [statSources, lycMatch, h]

/-- Without a source a recomputation requests only where LY=LYC raises the line. -/
theorem requestsOnlyIf_recompute {c : Prop} {s : State} (hsrc : s.src = .none)
    (h : s.statLine = false → s.cmp = some s.lyc → c) : RequestsOnlyIf c s.outputs (recompute s).outputs := by
  rw [recompute_eq]
  refine ⟨statEdge s, rfl, ?_⟩
  unfold statEdge
  split
  · rename_i hedge
    obtain ⟨hsources, hline⟩ := hedge
    obtain ⟨-, hmatch⟩ := (statSources_of_src_none hsrc).mp hsources
    intro r hr
    obtain rfl := List.mem_singleton.mp hr
    exact ⟨nofun, fun _ => h hline hmatch⟩
  · exact nofun

/-- Of the write bug's two recomputations (rule R216) only the first can raise the line. -/
theorem requestsOnlyIf_statDmg {c : Prop} {s : State} (en : BitVec 4) (hsrc : s.src = .none)
    (h : s.statLine = false → s.cmp = some s.lyc → c) :
    RequestsOnlyIf c s.outputs
      (recompute { recompute { s with statEn := 0b1111#4 } with statEn := en }).outputs := by
  have hfirst := requestsOnlyIf_recompute (s := { s with statEn := 0b1111#4 }) hsrc h
  refine hfirst.trans (requestsOnlyIf_recompute
    (s := { recompute { s with statEn := 0b1111#4 } with statEn := en }) ?_ ?_)
  · rw [recompute_eq]
    exact hsrc
  · rw [recompute_eq]
    intro hline hmatch
    have henabled : (0b1111#4).getLsbD 3 = true := by decide
    have hraised : statSources { s with statEn := 0b1111#4 } = true :=
      (statSources_of_src_none (s := { s with statEn := 0b1111#4 }) hsrc).mpr ⟨henabled, hmatch⟩
    exact absurd (hraised.symm.trans hline) (by decide)

/-- The engine puts out time charges alone. -/
theorem requestsOnlyIf_hdma5 {c : Prop} (v : Byte) (s : State) :
    RequestsOnlyIf c s.outputs (hdma5Write v s).outputs := by
  obtain heq | heq | heq | ⟨-, heq⟩ | heq := hdma5Write_cases v s <;> rw [heq]
  · exact .refl ..
  · exact .refl ..
  · rw [hdmaBlock_eq]
    exact requestsOnlyIf_single nofun nofun
  · exact .refl ..
  · rw [gdma_eq]
    exact requestsOnlyIf_single nofun nofun

/-- The one way to a STAT request in the LCD-off state (assumption 20). -/
def OffRequest (i : Instr) (s t : State) : Prop :=
  s.statLine = false ∧ t.cmp = some t.lyc ∧ ∃ v : Byte, i = .wrStat v ∨ i = .wrStatDmg v ∨ i = .wrLyc v

/-- With no event pending nothing falls due. -/
theorem due_of_idle {s : State} {n : Nat} (h : s.pending = none) (e : Event) (due : Nat)
    (hp : s.pending = some (e, due)) : n < due := nomatch h.symm.trans hp

/-- What an operation can do in the LCD-off state: leave it by an enable, request by `OffRequest`. -/
theorem ExecEffect.of_off {i : Instr} {s t : State} (h : ExecEffect i s t) (hp : s.pending = none)
    (hphase : s.phase = .off) (hsrc : s.src = .none) (hoff : lcdOn s = false) :
    (t.phase ≠ .off → ∃ v : Byte, i = .wrLcdc v ∧ v.getLsbD 7 = true)
    ∧ RequestsOnlyIf (OffRequest i s t) s.outputs t.outputs := by
  cases h with
  | event e hp' => cases hp.symm.trans hp'
  | advance n =>
    rw [runUntil_quiet (due_of_idle hp)]
    exact ⟨fun hne => absurd hphase hne, .refl ..⟩
  | hdma5 v =>
    have hp' : (hdma5Write v s).pending = none := by rw [hdma5Write_frame]; exact hp
    have hphase' : (hdma5Write v s).phase = .off := by rw [hdma5Write_frame]; exact hphase
    rw [settle_quiet (due_of_idle hp')]
    exact ⟨fun hne => absurd hphase' hne, requestsOnlyIf_hdma5 v s⟩
  | lcdc v =>
    obtain ⟨-, heq⟩ | ⟨-, hv, heq⟩ | ⟨hon, -, -⟩ := lcdcWrite_cases v s
    · rw [heq]
      exact ⟨fun hne => absurd hphase hne, .refl ..⟩
    · rw [heq, lcdEnable_eq]
      exact ⟨fun _ => ⟨v, rfl, hv⟩, requestsOnlyIf_single nofun nofun⟩
    · exact absurd (hon.symm.trans hoff) (by decide)
  | stat v =>
    refine ⟨fun hne => absurd (by rw [recompute_eq]; exact hphase) hne,
      requestsOnlyIf_recompute (s := { s with statEn := statEnables v }) hsrc fun hline hmatch => ?_⟩
    rw [recompute_eq]
    exact ⟨hline, hmatch, v, .inl rfl⟩
  | statDmg v =>
    refine ⟨fun hne => absurd (by simpa only [recompute_eq] using hphase) hne,
      requestsOnlyIf_statDmg (statEnables v) hsrc fun hline hmatch => ?_⟩
    simp only [recompute_eq]
    exact ⟨hline, hmatch, v, .inr (.inl rfl)⟩
  | lyc v =>
    refine ⟨fun hne => absurd (by rw [recompute_eq]; exact hphase) hne,
      requestsOnlyIf_recompute (s := { s with lyc := v }) hsrc fun hline hmatch => ?_⟩
    rw [recompute_eq]
    exact ⟨hline, hmatch, v, .inr (.inr rfl)⟩
  | reset h =>
    cases h
    refine ⟨fun hne => absurd rfl hne, ?_⟩
    rw [lockSet_eq]
    exact requestsOnlyIf_locks _ s
  | palette ctx v h =>
    rw [h, capture_eq]
    exact ⟨fun hne => absurd hphase hne, .refl ..⟩
  | colour _ h | plain h =>
    rw [h]
    exact ⟨fun hne => absurd hphase hne, .refl ..⟩

end Sys2Proof.Machine

/-! PROOFS. The values of the STAT byte, of a sprite and of the colour-palette index, as the rules write
them. -/

namespace Sys2Proof.Machine

/-! ## OAM (rules R402, R403) -/

/-- WR.OAM outside the write lock. -/
theorem exec_wrOam_open (off : Fin 160) (v : Byte) {s : State} (h : s.locks.oamW = false) :
    exec (.wrOam off v) s = .next (oamSet off v s) := by
  simp only [exec, execWrOam, h]
  rfl

/-- OAM after a byte's write. -/
theorem oamAt_oamSet {s : State} (h : Memory.wf 160 s.oam = true) (off : Fin 160) (v : Byte) (x : Nat) :
    oamAt (oamSet off v s) x = if x = off.val then v else oamAt s x := by
  split
  · rename_i hx
    subst hx
    exact Memory.read_write_self h off.val v
  · rename_i hx
    exact Memory.read_write_other s.oam v hx

/-- A sprite is its four bytes. -/
theorem sprite_congr {s t : State} {k : Nat} (h : ∀ j < 4, oamAt t (4 * k + j) = oamAt s (4 * k + j)) :
    sprite t k = sprite s k := by
  have hy : oamAt t (4 * k) = oamAt s (4 * k) := h 0 (by decide)
  simp only [sprite, hy, h 1 (by decide), h 2 (by decide), h 3 (by decide)]

/-! ## The STAT read value (rules R34, R51, R214) -/

theorem lycMatch_iff (s : State) : lycMatch s = true ↔ s.cmp = some s.lyc := beq_iff_eq

/-- The four fields of the byte, side by side or shifted into place. -/
theorem statByte_eq : ∀ (en : BitVec 4) (lyc : Bool) (mode : BitVec 2),
    1#1 ++ en ++ BitVec.ofBool lyc ++ mode
      = 0x80#8 ||| (en.setWidth 8 <<< 3) ||| (if lyc = true then 0x04#8 else 0x00#8) ||| mode.setWidth 8 := by
  decide

/-! ## The colour-palette index (rules R42, R621) -/

theorem paletteIndex_val (ps : Byte) : (paletteIndex ps).val = ps.toNat % 64 := by
  simp [paletteIndex]

/-- Bit 7 of a byte alone. -/
theorem toNat_and_bit7 (ps : Byte) : (ps &&& 0x80#8).toNat = 2 ^ 7 * (ps.toNat / 2 ^ 7) := by
  have hlt := ps.isLt
  obtain h | h : ps.toNat / 2 ^ 7 = 0 ∨ ps.toNat / 2 ^ 7 = 1 := by omega
  all_goals
    rw [BitVec.toNat_and, show (0x80#8).toNat = 2 ^ 7 from rfl, Nat.and_two_pow,
      Nat.testBit_eq_decide_div_mod_eq, h]
    rfl

/-- The index register moves on by one, modulo 64, and keeps bit 7 (rule R621). -/
theorem paletteIndexNext_eq (ps : Byte) :
    paletteIndexNext ps = BitVec.ofNat 8 (128 * (ps.toNat / 128) + (ps.toNat % 64 + 1) % 64) := by
  have hlt := ps.isLt
  have hindex : (paletteIndex ps).val = ps.toNat % 64 := paletteIndex_val ps
  have hnext : (ps.toNat % 64 + 1) % 64 < 2 ^ 7 := by omega
  apply BitVec.eq_of_toNat_eq
  rw [paletteIndexNext, BitVec.toNat_or, toNat_and_bit7, hindex, BitVec.toNat_ofNat, BitVec.toNat_ofNat,
    Nat.mod_eq_of_lt (hnext.trans (by decide)), ← Nat.two_pow_add_eq_or_of_lt hnext]
  omega

theorem cram_set_index (m : Cram) (ps v : Byte) :
    m.set (paletteIndex ps) v = m.setIfInBounds (ps.toNat % 64) v := by
  rw [← paletteIndex_val]
  ext i hi
  simp [Vector.getElem_set, Vector.getElem_setIfInBounds]

theorem cram_get_index (m : Cram) (ps : Byte) :
    m[paletteIndex ps] = m[ps.toNat % 64]'(Nat.mod_lt _ (by decide)) := by
  simp only [Fin.getElem_fin, paletteIndex_val]

end Sys2Proof.Machine

/-! PROOFS. The statements of spec/10_state.md. -/

namespace Sys2Proof.Proofs

open Sys2Proof.Machine

/-- Settles O54: every effect of an operation keeps the block on its timeline, and leaves no event overdue. -/
theorem stepKeepsInvariant : Obligations.StepKeepsInvariant := fun _ _ hs h => step_inv hs h

/-- Settles O20: a sprite is its four bytes, of which the write changes one. -/
theorem spriteFollowsOamWrite : Obligations.SpriteFollowsOamWrite := by
  intro s k j v t hwf hopen h
  rw [exec_wrOam_open _ v hopen] at h
  cases h
  constructor
  · fin_cases j <;> simp [sprite, oamAt_oamSet hwf]
  · intro k' hk
    have hne : k'.val ≠ k.val := fun h => hk (Fin.ext h)
    refine sprite_congr fun j' hj' => ?_
    have hother : 4 * k'.val + j' ≠ 4 * k.val + j.val := by omega
    rw [oamAt_oamSet hwf, if_neg hother]

/-- Settles O55: from the timeline and the DMA invariants. -/
theorem invariantGivesStateRanges : Obligations.InvariantGivesStateRanges := by
  intro s hinv
  obtain ⟨htime, hcmp, -, ⟨hactive, hrem, hpaused, -⟩, -⟩ := hinv
  have hidle := htime.pending_none_iff_phase
  refine ⟨htime.line_le, hcmp, hrem, hactive, hpaused, hidle.symm.trans htime.pending_none_iff,
    fun hphase => ?_, hidle⟩
  obtain ⟨-, -, hmode, -, hly, hlocks⟩ := (timeline_idle (hidle.mpr hphase)).mp htime
  exact ⟨hidle.mpr hphase, hmode, hly, hlocks⟩

/-- Settles O56: every write to a store is below its size. -/
theorem stepKeepsMemoryCanonical : Obligations.StepKeepsMemoryCanonical := fun _ _ hs h => step_canonical hs h

/-- Settles O60: with no event pending and no source, only LY=LYC can raise the line. -/
theorem offIsQuietAndLeftOnlyByEnable : Obligations.OffIsQuietAndLeftOnlyByEnable := by
  intro s t i hinv hphase h
  obtain ⟨htime, -⟩ := hinv
  have hp := htime.pending_none_iff_phase.mpr hphase
  obtain ⟨hoff, -, hmode, hsrc, hly, hlocks⟩ := (timeline_idle hp).mp htime
  exact ⟨⟨hoff, hp, hly, hmode, hlocks⟩, (exec_effect h).of_off hp hphase hsrc hoff⟩

/-- Settles O8. -/
theorem statReadValue : Obligations.StatReadValue := by
  intro s
  have hread : statRead s = _ := statByte_eq s.statEn (lycMatch s) s.mode.code
  rw [exec, execRdStat, respond, hread]
  simp only [lycMatch_iff]

/-- Settles O25: the handler, with the penalty's table. -/
theorem pixelTransfer : Obligations.PixelTransfer := by
  intro s hp hc
  refine (exec_event_uncharged hp hc rfl).trans (congrArg Host.Outcome.next ?_)
  simp only [handle, handleXferStart, schedule, setSrc_def, lockSet_eq, recompute_eq, scrollPenalty_eq]
  rfl

/-- Settles O44: each register by its meaning on colour hardware. -/
theorem colourPaletteRegisters : Obligations.ColourPaletteRegisters := by
  intro s v hw
  have hread : ∀ b : Byte, (if (s.cfg.colorHw && s.mode != .transfer) = true then b else 0xFF)
      = if s.mode = .transfer then 0xFF else b := by
    intro b
    by_cases hm : s.mode = .transfer <;> simp [hw, hm]
  refine ⟨?wrBcps, ?rdBcps, ?wrOcps, ?rdOcps, ?wrBcpd, ?rdBcpd, ?wrOcpd, ?rdOcpd⟩
  case wrBcps => simp only [exec, execWrBcps, hw, if_true, paletteIndexStored]
  case rdBcps => simp only [exec, execRdBcps, hw, if_true, respond]
  case wrOcps => simp only [exec, execWrOcps, hw, if_true, paletteIndexStored]
  case rdOcps => simp only [exec, execRdOcps, hw, if_true, respond]
  case wrBcpd => simp only [exec, execWrBcpd, hw, if_true, cram_set_index, paletteIndexNext_eq]
  case rdBcpd => simp only [exec, execRdBcpd, hread, respond, cram_get_index]
  case wrOcpd => simp only [exec, execWrOcpd, hw, if_true, cram_set_index, paletteIndexNext_eq]
  case rdOcpd => simp only [exec, execRdOcpd, hread, respond, cram_get_index]

end Sys2Proof.Proofs

/-! PROOFS. One round of ADVANCE; how the charge of a write to HDMA5 and of an HBlank entry passes; and what
a copy leaves in any state that agrees with another on what copies read (rules R117, R232, R505, R512 to
R516). -/

namespace Sys2Proof.Machine

/-! ## The passage of time -/

/-- ADVANCE by what is left to a target; a target already past leaves nothing. -/
theorem exec_advance_to (target : Nat) (s : State) :
    exec (.advance (target - s.now)) s = .next (runUntil (max s.now target) s) := by
  have h : s.now + (target - s.now) = max s.now target := by omega
  rw [exec, execAdvance, h]

/-- One round of ADVANCE (rule R232): the due event fires, its charge passes, ADVANCE goes on. -/
theorem exec_advance_fire {s u : State} {n due : Nat} {e : Event} (hc : s.charge = 0)
    (hp : s.pending = some (e, due)) (hle : due ≤ s.now + n) (hu : u = fire e { s with now := due }) :
    ∃ w, exec (.advance u.charge) { u with charge := 0 } = .next w
      ∧ exec (.advance n) s = exec (.advance (s.now + n - w.now)) w := by
  have hnow : (fire e { s with now := due }).now = due := (fire_sequence e _).2.2.1
  have hround := runUntil_fire hc hp hle
  rw [← hu] at hnow hround
  subst hnow
  exact ⟨_, rfl, (congrArg Host.Outcome.next hround).trans (exec_advance_to _ _).symm⟩

theorem hdma5Write_pending (v : Byte) (s : State) : (hdma5Write v s).pending = s.pending := by
  rw [hdma5Write_frame]

theorem hdma5Write_now (v : Byte) (s : State) : (hdma5Write v s).now = s.now := by
  rw [hdma5Write_frame]

/-- A write to HDMA5 that asks for `n` units: they pass as an ADVANCE (rule R117), and with nothing due in
them only the time moves. -/
theorem exec_wrHdma5_charged {v : Byte} {s u : State} {n : Nat} (hu : u.charge = 0) (hn : n ≠ 0)
    (hwrite : hdma5Write v s = { u with charge := n }) :
    exec (.wrHdma5 v) s = exec (.advance n) u
    ∧ ((∀ e due, s.pending = some (e, due) → s.now + n < due) →
      exec (.wrHdma5 v) s = .next { u with now := s.now + n }) := by
  have hadvance : exec (.wrHdma5 v) s = exec (.advance n) u := by
    rw [exec, execWrHdma5, hwrite, settle_charged rfl hn, ← hu]
  have hpending := hdma5Write_pending v s
  have hnow := hdma5Write_now v s
  rw [hwrite] at hpending hnow
  refine ⟨hadvance, fun hq => ?_⟩
  rw [← hpending, ← hnow] at hq
  rw [hadvance, advance_quiet hu hq, ← hnow]

/-- An event whose charge ends before the next event: its handler runs, and the charge moves the time
alone. -/
theorem exec_event_charged {e : Event} {s : State} (hp : s.pending = some (e, s.now)) (hc : s.charge = 0)
    (hlt : eventCharge e s < eventDelay e s) :
    exec e.instr s = .next { fire e s with now := s.now + eventCharge e s, charge := 0 } := by
  obtain ⟨hnext, hcharge, hnow, -⟩ := fire_sequence e s
  rw [hc, Nat.zero_add] at hcharge
  have hquiet : ∀ e' due, (fire e s).pending = some (e', due) → (fire e s).now + (fire e s).charge < due := by
    intro e' due hp'
    obtain ⟨-, rfl⟩ := Prod.mk.inj (Option.some.inj (hnext.symm.trans hp'))
    omega
  rw [exec_event, fireAdmitted_due hp, settle_quiet hquiet, hcharge, hnow]

/-! ## Copying blocks -/

/-- Copying blocks reads only what `SameCopy` names, and touches VRAM, the count of Bus reads and the two
addresses only: a copy in another state of the same operation has the same effect there. -/
theorem copyBlocks_of_same (n : Nat) {s t : State} (h : SameCopy s t) :
    copyBlocks n t = { t with
      vram := (copyBlocks n s).vram
      busCount := (copyBlocks n s).busCount
      hdma := { t.hdma with src := (copyBlocks n s).hdma.src, dst := (copyBlocks n s).hdma.dst } } := by
  obtain ⟨hvram, hsrc, hdst, -, -, hcount⟩ := copyBlocks_same n h
  rw [hvram, hsrc, hdst, hcount, copyBlocks_eq]

theorem copyBlock_of_same {s t : State} (h : SameCopy s t) :
    copyBlock t = { t with
      vram := (copyBlock s).vram
      busCount := (copyBlock s).busCount
      hdma := { t.hdma with src := (copyBlock s).hdma.src, dst := (copyBlock s).hdma.dst } } :=
  copyBlocks_of_same 1 h

/-- Counting a block of a running transfer: the last one completes it (rules R513, R516). -/
theorem countBlock_running {h : Hdma} (hactive : h.active = true) (hcomplete : h.complete = false)
    (hrem : 1 ≤ h.rem) : countBlock h = { h with
      rem := h.rem - 1, active := decide (h.rem ≠ 1), complete := decide (h.rem = 1) } := by
  have hlast : h.rem - 1 = 0 ↔ h.rem = 1 := by omega
  unfold countBlock
  by_cases hone : h.rem = 1 <;> simp [hlast, hone, hactive, hcomplete]

/-- One block of a running transfer in `t`, by what the copy does in a state that agrees with `t` on what
a copy reads. -/
theorem hdmaBlock_running {s t : State} (h : SameCopy s t) (hactive : t.hdma.active = true)
    (hcomplete : t.hdma.complete = false) (hrem : 1 ≤ t.hdma.rem) :
    hdmaBlock t = { t with
      vram := (copyBlock s).vram
      busCount := (copyBlock s).busCount
      hdma := { t.hdma with
        src := (copyBlock s).hdma.src, dst := (copyBlock s).hdma.dst, rem := t.hdma.rem - 1
        active := decide (t.hdma.rem ≠ 1), complete := decide (t.hdma.rem = 1) }
      outputs := t.outputs ++ [(t.now, .advance (blockCost t))]
      charge := t.charge + blockCost t } := by
  have hcount := countBlock_running
    (h := { t.hdma with src := (copyBlock s).hdma.src, dst := (copyBlock s).hdma.dst }) hactive hcomplete hrem
  simp only [hdmaBlock, copyBlock_of_same h, hcount]
  rfl

/-- A general-purpose transfer, by what copying its blocks does with the flags as they were. -/
theorem gdma_copies (n : Nat) (s : State) :
    gdma n s = { copyBlocks n s with
      hdma := { (copyBlocks n s).hdma with rem := 0, active := false, paused := false, complete := true }
      outputs := s.outputs ++ [(s.now, .advance (n * blockCost s))]
      charge := s.charge + n * blockCost s } := by
  have hcopy := copyBlocks_of_same n (s := s)
    (t := { s with hdma := { s.hdma with active := false, paused := false } }) ⟨rfl, rfl, rfl, rfl, rfl, rfl⟩
  have hframe := copyBlocks_eq n s
  rw [gdma, hcopy]
  generalize copyBlocks n s = c at hframe ⊢
  rw [hframe]
  rfl

theorem hdmaBlocks_eq (v : Byte) : hdmaBlocks v = v.toNat % 128 + 1 := by
  rw [hdmaBlocks, BitVec.extractLsb'_toNat]
  rfl

/-! ## What starts a transfer -/

/-- Bit 7 clear with no transfer in progress (rule R505). -/
theorem hdma5Write_gdma {v : Byte} {s : State} (hw : s.cfg.colorHw = true) (hv : v.getLsbD 7 = false)
    (hidle : s.hdma.active = true → s.hdma.paused = true) : hdma5Write v s = gdma (hdmaBlocks v) s := by
  have hrun : (s.hdma.active && !s.hdma.paused) = false := by
    cases h : s.hdma.active
    · rfl
    · rw [hidle h]; rfl
  rw [hdma5Write, if_pos hw, hdmaMode, hv, if_neg nofun, hdmaPauseOrGdma, hrun, if_neg nofun]

/-- Bit 7 set with the LCD off or in horizontal blank (rule R505). -/
theorem hdma5Write_block {v : Byte} {s : State} (hw : s.cfg.colorHw = true) (hv : v.getLsbD 7 = true)
    (hnow : lcdOn s = false ∨ s.phase = .hblank ∨ s.phase = .glitchHblank) :
    hdma5Write v s = hdmaBlock (hdmaArm (hdmaBlocks v) s) := by
  have himm : hdmaImmediate (hdmaArm (hdmaBlocks v) s) = true := by
    show (!lcdOn s || s.phase == .hblank || s.phase == .glitchHblank) = true
    obtain h | h | h := hnow <;> simp [h]
  rw [hdma5Write, if_pos hw, hdmaMode, if_pos hv]
  exact if_pos himm

/-- A block due at an HBlank entry belongs to a running transfer (rule R515). -/
theorem running_of_due {s : State} (hl : HdmaLegal s.hdma) (hd : hdmaDue s = true) :
    s.hdma.active = true ∧ s.hdma.complete = false ∧ 1 ≤ s.hdma.rem := by
  obtain ⟨hactive, -⟩ := hl
  simp only [hdmaDue, Bool.and_eq_true] at hd
  obtain ⟨⟨-, ha⟩, -⟩ := hd
  exact ⟨ha, hactive ha⟩

/-- The block of an HBlank entry, in a state of the entry's handler that agrees with `s` on what a copy
reads, on the engine and on the configuration (rules R515, R516). -/
theorem opportunity_copies {s t : State} (hl : HdmaLegal s.hdma) (hd : hdmaDue s = true) (h : SameCopy s t)
    (hengine : t.hdma = s.hdma) (hcfg : t.cfg = s.cfg) :
    hdmaHBlankOpportunity t = { t with
      vram := (copyBlock s).vram
      busCount := (copyBlock s).busCount
      hdma := { s.hdma with
        src := (copyBlock s).hdma.src, dst := (copyBlock s).hdma.dst, rem := s.hdma.rem - 1
        active := decide (s.hdma.rem ≠ 1), complete := decide (s.hdma.rem = 1) }
      outputs := t.outputs ++ [(t.now, .advance (blockCost t))]
      charge := t.charge + blockCost t } := by
  have hdue : hdmaDue t = true := by simpa only [hdmaDue, colorMode, hengine, hcfg] using hd
  have hrun := running_of_due hl hd
  rw [← hengine] at hrun ⊢
  obtain ⟨hactive, hcomplete, hrem⟩ := hrun
  rw [hdmaHBlankOpportunity, if_pos hdue, hdmaBlock_running h hactive hcomplete hrem]

/-- The HBlank entry of a visible line with a transfer running: composition reads the state before the
copy (rules R246, R515). -/
theorem hblankStart_copies {s : State} (hl : HdmaLegal s.hdma) (hd : hdmaDue s = true) :
    fire .hblankStart s = { copyBlock s with
      mode := .hblank
      phase := .hblank
      locks := Locks.open
      fb := if hly : s.ly.toNat < 144 then s.fb.set s.ly.toNat (composeRow s s.ly.toNat) hly else s.fb
      windowLine := if windowVisible s s.ly.toNat = true then s.windowLine + 1 else s.windowLine
      hdma := { (copyBlock s).hdma with
        rem := s.hdma.rem - 1
        active := decide (s.hdma.rem ≠ 1), complete := decide (s.hdma.rem = 1) }
      outputs := s.outputs ++ lockChange Locks.open s ++ [(s.now, .advance (blockCost s))]
      pending := some (.hblankEnd, s.now + (196 - s.penalty + lineExtra s))
      charge := s.charge + blockCost s } := by
  have hcopy := copyBlock_eq s
  simp only [fire, handle, handleHblankStart, lockSet_eq, composeLine]
  rw [opportunity_copies hl hd]
  · generalize copyBlock s = c at hcopy ⊢
    rw [hcopy]
    rfl
  · exact ⟨rfl, rfl, rfl, rfl, rfl, rfl⟩
  · rfl
  · rfl

/-- The HBlank entry of the glitch line with a transfer running (rules R235, R515). -/
theorem glitchHblank_copies {s : State} (hl : HdmaLegal s.hdma) (hd : hdmaDue s = true) :
    let t := { copyBlock s with src := .hblank }
    fire .glitchHblank s = { t with
      mode := .hblank
      phase := .glitchHblank
      locks := Locks.open
      statLine := statSources t
      hdma := { (copyBlock s).hdma with
        rem := s.hdma.rem - 1
        active := decide (s.hdma.rem ≠ 1), complete := decide (s.hdma.rem = 1) }
      outputs := s.outputs ++ lockChange Locks.open s ++ statEdge t ++ [(s.now, .advance (blockCost s))]
      pending := some (.line0Start, s.now + 196)
      charge := s.charge + blockCost s } := by
  have hcopy := copyBlock_eq s
  simp only [fire, handle, handleGlitchHblank, lockSet_eq, setSrc_def, recompute_eq]
  rw [opportunity_copies hl hd]
  · generalize copyBlock s = c at hcopy ⊢
    rw [hcopy]
    rfl
  · exact ⟨rfl, rfl, rfl, rfl, rfl, rfl⟩
  · rfl
  · rfl

end Sys2Proof.Machine

/-! PROOFS. The numbers the writes to HDMA1 to HDMA4 assemble (rules R501 to R504). -/

namespace Sys2Proof.Machine

/-- A mask of `m` bits from bit `k` on keeps that field. -/
theorem and_field (x k m : Nat) : x &&& 2 ^ k * (2 ^ m - 1) = 2 ^ k * (x / 2 ^ k % 2 ^ m) := by
  have hhigh : (x &&& 2 ^ k * (2 ^ m - 1)) / 2 ^ k = x / 2 ^ k % 2 ^ m := by
    rw [Nat.and_div_two_pow, Nat.mul_div_cancel_left _ (Nat.two_pow_pos k), Nat.and_two_pow_sub_one_eq_mod]
  have hlow : (x &&& 2 ^ k * (2 ^ m - 1)) % 2 ^ k = 0 := by
    rw [Nat.and_mod_two_pow, Nat.mul_mod_right, Nat.and_zero]
  rw [← hhigh, Nat.mul_div_cancel' (Nat.dvd_of_mod_eq_zero hlow)]

/-- Two fields that do not overlap: their union is their sum. -/
theorem toNat_or_of_apart {w : Nat} (k : Nat) {high low : BitVec w} (hh : high.toNat % 2 ^ k = 0)
    (hl : low.toNat < 2 ^ k) : (high ||| low).toNat = high.toNat + low.toNat := by
  rw [BitVec.toNat_or, ← Nat.mul_div_cancel' (Nat.dvd_of_mod_eq_zero hh), Nat.two_pow_add_eq_or_of_lt hl]

theorem toNat_highNibble (v : Byte) : (v &&& 0xF0#8).toNat = 16 * (v.toNat / 16) := by
  have h := and_field v.toNat 4 4
  have := v.isLt
  rw [BitVec.toNat_and]
  show v.toNat &&& 2 ^ 4 * (2 ^ 4 - 1) = _
  omega

/-- Bits 7 to 4 of an address on a block boundary are its low byte. -/
theorem toNat_lowByte {a : Addr} (h : SrcLegal a) : (a &&& 0x00F0#16).toNat = a.toNat % 256 := by
  have hf := and_field a.toNat 4 4
  unfold SrcLegal at h
  rw [BitVec.toNat_and]
  show a.toNat &&& 2 ^ 4 * (2 ^ 4 - 1) = _
  omega

theorem toNat_highByte (a : Addr) : (a &&& 0xFF00#16).toNat = 256 * (a.toNat / 256) := by
  have h := and_field a.toNat 8 8
  have := a.isLt
  rw [BitVec.toNat_and]
  show a.toNat &&& 2 ^ 8 * (2 ^ 8 - 1) = _
  omega

theorem toNat_moveHigh (v : Byte) : (v.setWidth 16 <<< 8).toNat = 256 * v.toNat := by
  have := v.isLt
  simp only [BitVec.toNat_shiftLeft, BitVec.toNat_setWidth, Nat.shiftLeft_eq]
  omega

/-- What WR.HDMA1 assembles. -/
theorem toNat_srcHigh (v : Byte) {a : Addr} (h : SrcLegal a) :
    ((v.setWidth 16 <<< 8) ||| (a &&& 0x00F0#16)).toNat = 256 * v.toNat + a.toNat % 256 := by
  have hhigh := toNat_moveHigh v
  have hlow := toNat_lowByte h
  rw [toNat_or_of_apart 8 (by omega) (by omega), hhigh, hlow]

/-- What WR.HDMA2 and WR.HDMA4 assemble. -/
theorem toNat_addrLow (v : Byte) (a : Addr) :
    ((a &&& 0xFF00#16) ||| (v &&& 0xF0#8).setWidth 16).toNat
      = 256 * (a.toNat / 256) + 16 * (v.toNat / 16) := by
  have hhigh := toNat_highByte a
  have hlow : ((v &&& 0xF0#8).setWidth 16).toNat = 16 * (v.toNat / 16) :=
    (BitVec.toNat_setWidth_of_le (by decide)).trans (toNat_highNibble v)
  have := v.isLt
  rw [toNat_or_of_apart 8 (by omega) (by omega), hhigh, hlow]

/-- What WR.HDMA3 assembles. -/
theorem toNat_dstHigh (v : Byte) {a : Addr} (h : SrcLegal a) :
    (0x8000#16 ||| ((v &&& 0x1F#8).setWidth 16 <<< 8) ||| (a &&& 0x00F0#16)).toNat
      = 0x8000 + 256 * (v.toNat % 32) + a.toNat % 256 := by
  have hfive : (v &&& 0x1F#8).toNat = v.toNat % 32 := Nat.and_two_pow_sub_one_eq_mod v.toNat 5
  have hmid := toNat_moveHigh (v &&& 0x1F#8)
  have hhigh : (0x8000#16 ||| ((v &&& 0x1F#8).setWidth 16 <<< 8)).toNat = 0x8000 + 256 * (v.toNat % 32) := by
    rw [toNat_or_of_apart 13 (by decide) (by omega), hmid, hfive]
    rfl
  have hlow := toNat_lowByte h
  rw [toNat_or_of_apart 8 (by omega) (by omega), hhigh, hlow]

/-- Folding out of the echo mirror moves an address down by 0x2000. -/
theorem toNat_echoFold (a : Addr) :
    (echoFold a).toNat = if 0xE000 ≤ a.toNat then a.toNat - 0x2000 else a.toNat := by
  have hlt := a.isLt
  have hle : 0xE000#16 ≤ a ↔ 0xE000 ≤ a.toNat := BitVec.le_def
  unfold echoFold
  simp only [hle]
  split
  · rename_i hecho
    have htop : a.toNat / 2 ^ 13 = 7 := by omega
    have hhigh : (a.toNat &&& 0xDFFF) / 2 ^ 13 = 6 := by rw [Nat.and_div_two_pow, htop]; rfl
    have hlow : (a.toNat &&& 0xDFFF) % 2 ^ 13 = a.toNat % 2 ^ 13 := by
      rw [Nat.and_mod_two_pow]
      exact (Nat.and_two_pow_sub_one_eq_mod _ 13).trans (Nat.mod_mod _ _)
    rw [BitVec.toNat_and]
    show a.toNat &&& 0xDFFF = _
    omega
  · rfl

theorem echoFold_lt (a : Addr) : (echoFold a).toNat < 0xE000 := by
  have := a.isLt
  rw [toNat_echoFold]
  split <;> omega

end Sys2Proof.Machine

/-! PROOFS. The statements of spec/20_memory.md. -/

namespace Sys2Proof.Proofs

open Sys2Proof.Machine

/-- Settles O32: one round, the end of the loop, and what the loop leaves. -/
theorem advanceFiresEveryDueEvent : Obligations.AdvanceFiresEveryDueEvent := by
  intro s n hc
  obtain ⟨hreached, -, hfired⟩ := runUntil_done (s.now + n) s (Nat.le_add_right _ _)
  exact ⟨fun _ _ hp hdue => exec_advance_fire hc hp hdue rfl, advance_quiet hc, _, rfl, hreached, hfired⟩

/-- Settles O35: the sources fold out of the echo mirror, the destinations stay in the VRAM window. -/
theorem hdmaAddressWrites : Obligations.HdmaAddressWrites := by
  intro s v hlegal fold
  obtain ⟨-, hdst, hsrc⟩ := (hdmaLegal_iff _).mp hlegal
  have ⟨_, _, haligned⟩ := hdst
  have hsrc1 := (toNat_echoFold _).trans (congrArg fold (toNat_srcHigh v hsrc))
  have hsrc2 := (toNat_echoFold _).trans (congrArg fold (toNat_addrLow v s.hdma.src))
  refine ⟨_, _, _, _, rfl, rfl, rfl, rfl, hsrc1, hsrc2, toNat_dstHigh v haligned, toNat_addrLow v _, ?_⟩
  obtain ⟨hlow3, htop3, haligned3⟩ := dstLegal_high v s.hdma.dst
  obtain ⟨hlow4, htop4, haligned4⟩ := dstLegal_low v hdst
  exact ⟨srcLegal_echoFold (srcLegal_high v _), echoFold_lt _, srcLegal_echoFold (srcLegal_low v _),
    echoFold_lt _, hlow3, htop3, haligned3, hlow4, htop4, haligned4⟩

/-- Settles O39: the write is a GDMA, which copies as `copyBlock` does with the flags as they were. -/
theorem gdmaRunsWhole : Obligations.GdmaRunsWhole := by
  intro s v hc hw hv hidle n cost c u
  have hcost : cost = n * blockCost s := Nat.mul_assoc _ _ _
  have hwrite : hdma5Write v s = { u with charge := cost } := by
    rw [hdma5Write_gdma hw hv hidle, gdma_copies, hdmaBlocks_eq, copyBlocks_iterate, hc, Nat.zero_add,
      ← hcost]
  have hu : u.charge = 0 := by
    show (copyBlock^[n] s).charge = 0
    rw [← copyBlocks_iterate, copyBlocks_eq]
    exact hc
  have hpos : cost ≠ 0 := by show n * 16 * _ ≠ 0; split <;> omega
  exact exec_wrHdma5_charged hu hpos hwrite

/-- Settles O40: the transfer is armed and its first block counted. -/
theorem hdmaStartCopiesOneBlockAtOnce : Obligations.HdmaStartCopiesOneBlockAtOnce := by
  intro s v hc hw hv hnow cost c u
  have hcopy := copyBlock_eq s
  have hwrite : hdma5Write v s = { u with charge := cost } := by
    rw [hdma5Write_block hw hv hnow, hdmaBlock_running (s := s) (t := hdmaArm (hdmaBlocks v) s)
      ⟨rfl, rfl, rfl, rfl, rfl, rfl⟩ rfl rfl (hdmaBlocks_range v).1]
    simp only [u, c]
    generalize copyBlock s = c at hcopy ⊢
    rw [hcopy]
    simp [hdmaArm, hc, cost, blockCost, unitsPerByte, hdmaBlocks_eq]
  have hu : u.charge = 0 := (congrArg State.charge hcopy).trans hc
  have hpos : cost ≠ 0 := by show 16 * _ ≠ 0; split <;> omega
  exact exec_wrHdma5_charged hu hpos hwrite

/-- Settles O41: the charge of the block ends before the next event is due. -/
theorem hblankEntryCopiesOneBlock : Obligations.HblankEntryCopiesOneBlock := by
  intro s hc hlegal hdue cost c h
  have hcharge : opportunityCharge s = cost := if_pos hdue
  have hle := opportunityCharge_le s
  have hidle : c.charge = 0 := (congrArg State.charge (copyBlock_eq s)).trans hc
  refine ⟨fun hp hpen => ?_, fun hp => ?_⟩
  · have hlt : opportunityCharge s < 196 - s.penalty + lineExtra s := by
      obtain hpen | hpen | hpen := hpen <;> omega
    refine (exec_event_charged hp hc hlt).trans (congrArg Host.Outcome.next ?_)
    rw [hblankStart_copies hlegal hdue, eventCharge, hcharge, ← hidle]
    rfl
  · have hlt : opportunityCharge s < 196 := by omega
    refine (exec_event_charged hp hc hlt).trans (congrArg Host.Outcome.next ?_)
    rw [glitchHblank_copies hlegal hdue, eventCharge, hcharge, ← hidle]
    rfl

end Sys2Proof.Proofs

/-! PROOFS. What a word that decodes spells, class by class: its operation's own word is the same word but
for the ignored `data` field, and its argument is one the spec gives a meaning (rules R140 to R150). -/

namespace Sys2Proof

/-! ## The register tables (rule R147) -/

theorem mem_of_lookup {α β : Type} [BEq α] [LawfulBEq α] {l : List (α × β)} {a : α} {b : β}
    (h : l.lookup a = some b) : (a, b) ∈ l := by
  obtain ⟨l₁, l₂, rfl, -⟩ := List.lookup_eq_some_iff.mp h
  simp

/-- The addresses of the registers. -/
abbrev RegisterAddr (a : Addr) : Prop :=
  (0xFF40 ≤ a.toNat ∧ a.toNat ≤ 0xFF4B ∧ a.toNat ≠ 0xFF46)
  ∨ (0xFF51 ≤ a.toNat ∧ a.toNat ≤ 0xFF55)
  ∨ (0xFF68 ≤ a.toNat ∧ a.toNat ≤ 0xFF6B)

theorem rdTable_addr : ∀ p ∈ rdTable, RegisterAddr p.1 := by decide

theorem rdTable_encode : ∀ p ∈ rdTable, encode p.2 = rdWord p.1 := by decide

theorem rdTable_wellFormed : ∀ colorHw, ∀ p ∈ rdTable, p.2.wellFormed colorHw = true := by decide

/-- Reads and writes have the same register addresses. -/
theorem wrTable_addrs (colorHw : Bool) (v : Byte) :
    (wrTable colorHw v).map Prod.fst = rdTable.map Prod.fst := rfl

theorem wrTable_addr {colorHw : Bool} {v : Byte} : ∀ p ∈ wrTable colorHw v, RegisterAddr p.1 := by
  intro p hp
  have hmem := List.mem_map_of_mem (f := Prod.fst) hp
  rw [wrTable_addrs] at hmem
  obtain ⟨q, hq, heq⟩ := List.mem_map.mp hmem
  exact heq ▸ rdTable_addr q hq

theorem wrTable_encode {colorHw : Bool} {v : Byte} :
    ∀ p ∈ wrTable colorHw v, encode p.2 = wrWord p.1 v := by
  cases colorHw <;> simp [wrTable, encode]

theorem wrTable_wellFormed {colorHw : Bool} {v : Byte} :
    ∀ p ∈ wrTable colorHw v, p.2.wellFormed colorHw = true := by
  cases colorHw <;> simp [wrTable, Instr.wellFormed]

/-! ## The address windows as numbers (rule R147) -/

theorem isVramArg_range {a : Addr} (h : isVramArg a = true) : 0x8000 ≤ a.toNat ∧ a.toNat ≤ 0x9FFF := by
  have htop : (a.extractLsb' 13 3).toNat = 4 := congrArg BitVec.toNat (beq_iff_eq.mp h)
  have hlt := a.isLt
  rw [BitVec.extractLsb'_toNat, Nat.shiftRight_eq_div_pow] at htop
  omega

theorem oamOffset_range {a : Addr} {off : Fin 160} (h : oamOffset a = some off) :
    0xFE00 ≤ a.toNat ∧ a.toNat ≤ 0xFE9F := by
  have hlt := off.isLt
  have hsum := (Nat.shiftLeft_add_eq_or_of_lt (Nat.mod_lt off.val (by decide : 2 ^ 8 > 0)) 0xFE).symm
  have ha : a.toNat = 0xFE <<< 8 + off.val % 2 ^ 8 := by
    rw [← oamOffset_parts h, BitVec.toNat_append]
    exact hsum
  omega

/-- The addresses of the map of rule R147. -/
abbrev MappedAddr (a : Addr) : Prop :=
  (0x8000 ≤ a.toNat ∧ a.toNat ≤ 0x9FFF) ∨ (0xFE00 ≤ a.toNat ∧ a.toNat ≤ 0xFE9F) ∨ RegisterAddr a

theorem vramArg_mapped (off : VOff) : MappedAddr (0b100#3 ++ off) := .inl (isVramArg_range (isVramArg_off off))

theorem oamArg_mapped (off : Fin 160) : MappedAddr (0xFE#8 ++ BitVec.ofNat 8 off.val) :=
  .inr (.inl (oamOffset_range (oamOffset_off off)))

/-! ## What decodes, class by class -/

/-- The decoder of an access, by what it gives for the two windows and the table of the registers: the
common shape of classes RD and WR. -/
def decodeAccess (vram : VOff → Instr) (oam : Fin 160 → Instr) (table : List (Addr × Instr)) (a : Addr) :
    Except DecodeError Instr :=
  if isVramArg a then .ok (vram (a.extractLsb' 0 13))
  else match oamOffset a with
    | some off => .ok (oam off)
    | none =>
      match table.lookup a with
      | some i => .ok i
      | none => .error .reservedAddress

theorem decodeRd_eq (a : Addr) : decodeRd a = decodeAccess .rdVram .rdOam rdTable a := rfl

theorem decodeWr_eq (colorHw : Bool) (v : Byte) (a : Addr) :
    decodeWr colorHw v a = decodeAccess (.wrVram · v) (.wrOam · v) (wrTable colorHw v) a := rfl

theorem decodeAccess_ok {vram : VOff → Instr} {oam : Fin 160 → Instr} {table : List (Addr × Instr)}
    {a : Addr} {i : Instr} (h : decodeAccess vram oam table a = .ok i) :
    (∃ off, i = vram off ∧ 0b100#3 ++ off = a)
    ∨ (∃ off, i = oam off ∧ 0xFE#8 ++ BitVec.ofNat 8 off.val = a)
    ∨ (a, i) ∈ table := by
  unfold decodeAccess at h
  split at h
  · rename_i hvram; cases h; exact .inl ⟨_, rfl, isVramArg_parts hvram⟩
  · split at h
    · rename_i hoam; cases h; exact .inr (.inl ⟨_, rfl, oamOffset_parts hoam⟩)
    · split at h
      · rename_i hreg; cases h; exact .inr (.inr (mem_of_lookup hreg))
      · cases h

theorem decodeRd_ok {a : Addr} {i : Instr} (h : decodeRd a = .ok i) :
    (∀ colorHw, i.wellFormed colorHw = true) ∧ encode i = rdWord a ∧ MappedAddr a := by
  rw [decodeRd_eq] at h
  obtain ⟨off, rfl, rfl⟩ | ⟨off, rfl, rfl⟩ | hmem := decodeAccess_ok h
  · exact ⟨fun _ => rfl, rfl, vramArg_mapped off⟩
  · exact ⟨fun _ => rfl, rfl, oamArg_mapped off⟩
  · exact ⟨fun hw => rdTable_wellFormed hw _ hmem, rdTable_encode _ hmem, .inr (.inr (rdTable_addr _ hmem))⟩

theorem decodeWr_ok {colorHw : Bool} {v : Byte} {a : Addr} {i : Instr} (h : decodeWr colorHw v a = .ok i) :
    i.wellFormed colorHw = true ∧ encode i = wrWord a v ∧ MappedAddr a := by
  rw [decodeWr_eq] at h
  obtain ⟨off, rfl, rfl⟩ | ⟨off, rfl, rfl⟩ | hmem := decodeAccess_ok h
  · exact ⟨rfl, rfl, vramArg_mapped off⟩
  · exact ⟨rfl, rfl, oamArg_mapped off⟩
  · exact ⟨wrTable_wellFormed _ hmem, wrTable_encode _ hmem, .inr (.inr (wrTable_addr _ hmem))⟩

/-- The word of an EV operation is built from its event's number. -/
theorem encode_event (e : Event) : encode e.instr = evWord e.number := by cases e <;> rfl

theorem event_wellFormed (colorHw : Bool) (e : Event) : e.instr.wellFormed colorHw = true := by cases e <;> rfl

theorem event_arg_range (e : Event) : e.number.setWidth 16 ≠ 0 ∧ (e.number.setWidth 16).toNat ≤ 0x0D := by
  cases e <;> decide

theorem decodeEv_ok {a : Addr} {i : Instr} (h : decodeEv a = .ok i) :
    ∃ e : Event, i = e.instr ∧ e.number.setWidth 16 = a := by
  unfold decodeEv at h
  split at h
  · rename_i e he
    cases h
    exact ⟨e, rfl, by simpa using List.find?_some he⟩
  · cases h

theorem withoutOperand_ok {op : Operand} {r : Except DecodeError Instr} {i : Instr}
    (h : withoutOperand op r = .ok i) : op = .none ∧ r = .ok i := by
  unfold withoutOperand at h
  split at h
  · rename_i hop; exact ⟨hop, h⟩
  · cases h

theorem decodeOamBatch_ok {op : Operand} {i : Instr} (h : decodeOamBatch op = .ok i) :
    ∃ ws, op = .oam ws ∧ i = .oamBatch ws ∧ ws.all OamWrite.ok = true := by
  unfold decodeOamBatch at h
  split at h
  · split at h
    · rename_i hok; cases h; exact ⟨_, rfl, rfl, hok⟩
    · cases h
  all_goals cases h

theorem decodeVramBatch_ok {op : Operand} {i : Instr} (h : decodeVramBatch op = .ok i) :
    ∃ ws, op = .vram ws ∧ i = .vramBatch ws ∧ ws.all VramWrite.ok = true := by
  unfold decodeVramBatch at h
  split at h
  · split at h
    · rename_i hok; cases h; exact ⟨_, rfl, rfl, hok⟩
    · cases h
  all_goals cases h

theorem decodeAdvance_ok {op : Operand} {i : Instr} (h : decodeAdvance op = .ok i) :
    ∃ n, op = .time n ∧ i = .advance n := by
  unfold decodeAdvance at h
  split at h
  · cases h; exact ⟨_, rfl, rfl⟩
  all_goals cases h

theorem decodeCtl_ok {a : Addr} {op : Operand} {i : Instr} (h : decodeCtl a op = .ok i) :
    (∀ colorHw, i.wellFormed colorHw = true) ∧ encode i = ctlWord a op ∧ a.toNat ≤ 3 := by
  unfold decodeCtl at h
  split_ifs at h with h0 h1 h2 h3 <;> subst a
  · obtain ⟨rfl, h⟩ := withoutOperand_ok h
    cases h
    exact ⟨fun _ => rfl, rfl, by decide⟩
  · obtain ⟨ws, rfl, rfl, hok⟩ := decodeOamBatch_ok h
    exact ⟨fun _ => hok, rfl, by decide⟩
  · obtain ⟨ws, rfl, rfl, hok⟩ := decodeVramBatch_ok h
    exact ⟨fun _ => hok, rfl, by decide⟩
  · obtain ⟨n, rfl, rfl⟩ := decodeAdvance_ok h
    exact ⟨fun _ => rfl, rfl, by decide⟩

/-- Inversion of the decoder (rule R140: the class first, then the argument). -/
theorem decode_ok {colorHw : Bool} {w : OpWord} {i : Instr} (h : decode colorHw w = .ok i) :
    (w.cls = 0x0#4 ∧ w.operand = .none ∧ decodeRd w.arg = .ok i)
    ∨ (w.cls = 0x1#4 ∧ w.operand = .none ∧ decodeWr colorHw w.data w.arg = .ok i)
    ∨ (w.cls = 0x2#4 ∧ w.operand = .none ∧ decodeEv w.arg = .ok i)
    ∨ (w.cls = 0x3#4 ∧ decodeCtl w.arg w.operand = .ok i) := by
  unfold decode at h
  split_ifs at h with h0 h1 h2 h3
  · exact .inl ⟨h0, withoutOperand_ok h⟩
  · exact .inr (.inl ⟨h1, withoutOperand_ok h⟩)
  · exact .inr (.inr (.inl ⟨h2, withoutOperand_ok h⟩))
  · exact .inr (.inr (.inr ⟨h3, h⟩))

/-- The word with an ignored `data` field cleared (rules R140, R150): that of a write stays. -/
def OpWord.canonical (w : OpWord) : OpWord :=
  ⟨mkWord (if w.cls = 0x1#4 then w.data else 0#8) w.cls w.arg, w.operand⟩

theorem OpWord.canonical_write {w : OpWord} (h : w.cls = 0x1#4) : w.canonical = w := by
  rw [OpWord.canonical, if_pos h, mkWord_fields]

/-- Decoding gives a well-formed operation, and encoding it gives the word again. -/
theorem encode_of_decode {colorHw : Bool} {w : OpWord} {i : Instr} (h : decode colorHw w = .ok i) :
    i.wellFormed colorHw = true ∧ encode i = w.canonical := by
  unfold OpWord.canonical
  obtain ⟨hcls, hop, h⟩ | ⟨hcls, hop, h⟩ | ⟨hcls, hop, h⟩ | ⟨hcls, h⟩ := decode_ok h
  · obtain ⟨hwf, henc, -⟩ := decodeRd_ok h
    rw [henc, hcls, hop]
    exact ⟨hwf colorHw, rfl⟩
  · obtain ⟨hwf, henc, -⟩ := decodeWr_ok h
    rw [henc, hcls, hop]
    exact ⟨hwf, rfl⟩
  · obtain ⟨e, rfl, harg⟩ := decodeEv_ok h
    rw [encode_event, hcls, hop, ← harg]
    exact ⟨event_wellFormed colorHw e, rfl⟩
  · obtain ⟨hwf, henc, -⟩ := decodeCtl_ok h
    rw [henc, hcls]
    exact ⟨hwf colorHw, rfl⟩

/-! ## Decoding an operation's own word -/

/-- The registers' own words, which the table lists, decode by evaluation. -/
theorem decode_encode {colorHw : Bool} {i : Instr} (h : i.wellFormed colorHw = true) :
    decode colorHw (encode i) = .ok i := by
  cases i
  case rdVram off => rw [encode, decode_rdWord, decodeRd, if_pos (isVramArg_off off), vramArg_off]
  case wrVram off v => rw [encode, decode_wrWord, decodeWr, if_pos (isVramArg_off off), vramArg_off]
  case rdOam off => simp only [encode, decode_rdWord, decodeRd, isVramArg_oam, oamOffset_off]; rfl
  case wrOam off v => simp only [encode, decode_wrWord, decodeWr, isVramArg_oam, oamOffset_off]; rfl
  case wrStat v =>
    obtain rfl : colorHw = true := h
    exact decode_wrWord _ _ _
  case wrStatDmg v =>
    obtain rfl : colorHw = false := by simpa [Instr.wellFormed] using h
    exact decode_wrWord _ _ _
  case oamBatch ws => exact (decode_ctlWord _ _ _).trans (if_pos h)
  case vramBatch ws => exact (decode_ctlWord _ _ _).trans (if_pos h)
  case reset | advance => exact decode_ctlWord _ _ _
  case evGlitchXfer | evGlitchHblank | evLine0Start | evOamCont | evXferStart | evHblankPre | evHblankStart
      | evHblankEnd | evVblankCont | evVblankLine | evL153Cont | evL153End | evL153FrameEnd =>
    exact decode_evWord _ _
  case rdLcdc | rdStat | rdScy | rdScx | rdLy | rdLyc | rdBgp | rdObp0 | rdObp1 | rdWy | rdWx
      | rdHdma1 | rdHdma2 | rdHdma3 | rdHdma4 | rdHdma5 | rdBcps | rdBcpd | rdOcps | rdOcpd =>
    exact decode_rdWord _ _
  all_goals exact decode_wrWord _ _ _

/-! ## Batches with an entry out of range (rules R146, R150) -/

theorem oamBatch_ok_iff {ws : List OamWrite} : ws.all OamWrite.ok = true ↔ ∀ w ∈ ws, w.off < 160 := by
  simp [OamWrite.ok]

theorem vramBatch_ok_iff {ws : List VramWrite} :
    ws.all VramWrite.ok = true ↔ ∀ w ∈ ws, w.off < 0x2000 ∧ w.bank < 2 := by
  simp [VramWrite.ok]

theorem oamBatch_not_ok {ws : List OamWrite} (h : ∃ w ∈ ws, 160 ≤ w.off) : ¬ ws.all OamWrite.ok = true := by
  obtain ⟨w, hw, hrange⟩ := h
  intro hall
  have := oamBatch_ok_iff.mp hall w hw
  omega

theorem vramBatch_not_ok {ws : List VramWrite} (h : ∃ w ∈ ws, 0x2000 ≤ w.off ∨ 2 ≤ w.bank) :
    ¬ ws.all VramWrite.ok = true := by
  obtain ⟨w, hw, hrange⟩ := h
  intro hall
  have := vramBatch_ok_iff.mp hall w hw
  omega

end Sys2Proof

namespace Sys2Proof.Machine

/-! ## A step that takes an operation word (rules R149, R231) -/

theorem step_op {s : State} {w : OpWord} {rest : List Input} (h : s.inputs = .op w :: rest) :
    step s = stepOp w { s with inputs := rest } := by
  simp only [step, takeInput, h, List.tail_cons]

theorem step_undecodable {s : State} {w : OpWord} {rest : List Input} {e : DecodeError}
    (h : s.inputs = .op w :: rest) (hd : decode s.cfg.colorHw w = .error e) :
    step s = .refused (.undecodable e) := by
  rw [step_op h, stepOp, hd]

theorem fireAdmitted_refused {e : Event} {s : State} (h : s.pending ≠ some (e, s.now)) :
    fireAdmitted e s = .refused (.eventNotDue e) := by
  simp [fireAdmitted, eventDue, h]

end Sys2Proof.Machine

/-! PROOFS. The bytes of the stores after a batch: the last entry for a location wins (rules R412, R452). -/

namespace Sys2Proof.Machine

/-- The last entry that meets a test, with an entry put in front: it counts only where no other does. -/
theorem last_cons {α : Type} (p : α → Bool) (f : α → Byte) (w : α) (ws : List α) (old : Byte) :
    (((w :: ws).reverse.find? p).map f).getD old
      = ((ws.reverse.find? p).map f).getD (if p w = true then f w else old) := by
  rw [List.reverse_cons, List.find?_append, List.find?_singleton]
  cases ws.reverse.find? p with
  | some _ => rfl
  | none => split <;> rfl

theorem lastOamWrite_cons (x : Nat) (w : OamWrite) (ws : List OamWrite) (old : Byte) :
    (lastOamWrite x (w :: ws)).getD old = (lastOamWrite x ws).getD (if x = w.off then w.val else old) := by
  simp only [lastOamWrite, last_cons, beq_iff_eq, eq_comm (a := x)]

theorem lastVramWrite_cons (b x : Nat) (w : VramWrite) (ws : List VramWrite) (old : Byte) :
    (lastVramWrite b x (w :: ws)).getD old
      = (lastVramWrite b x ws).getD (if w.bank = b ∧ w.off = x then w.val else old) := by
  simp only [lastVramWrite, last_cons, Bool.and_eq_true, beq_iff_eq]

/-- An entry in range is the write of its byte. -/
theorem oamBatchWrite_eq {w : OamWrite} (h : w.off < 160) (s : State) :
    oamBatchWrite s w = oamSet ⟨w.off, h⟩ w.val s := dif_pos h

/-- VRAM after a byte's write. -/
theorem vramAt_vramSet {s : State} (h : Memory.wf 0x4000 s.vram = true) (b b' : Fin 2) (off x : VOff)
    (v : Byte) :
    vramAt (vramSet b off v s) b' x.toNat = if b = b' ∧ off = x then v else vramAt s b' x.toNat := by
  split
  · rename_i hsame
    obtain ⟨rfl, rfl⟩ := hsame
    exact Memory.read_write_self h _ v
  · rename_i hother
    refine Memory.read_write_other s.vram v fun hkey => hother ?_
    obtain ⟨hb, hx⟩ := vramKey_inj x.isLt off.isLt hkey
    exact ⟨hb.symm, BitVec.eq_of_toNat_eq hx.symm⟩

/-- An entry in range sets the byte it names and no other. -/
theorem vramAt_vramBatchWrite {s : State} (h : Memory.wf 0x4000 s.vram = true) {w : VramWrite}
    (hoff : w.off < 0x2000) (hbank : w.bank < 2) (b : Fin 2) (x : VOff) :
    vramAt (vramBatchWrite s w) b x.toNat
      = if w.bank = b.val ∧ w.off = x.toNat then w.val else vramAt s b x.toNat := by
  have hb : (if w.bank = 0 then 0 else 1 : Fin 2) = b ↔ w.bank = b.val := by
    have := b.isLt
    rw [Fin.ext_iff]
    split <;> simp only [Fin.val_zero, Fin.val_one] <;> omega
  have hx : BitVec.ofNat 13 w.off = x ↔ w.off = x.toNat := by
    rw [BitVec.toNat_eq, BitVec.toNat_ofNat, Nat.mod_eq_of_lt hoff]
  rw [vramBatchWrite, vramAt_vramSet h]
  simp only [hb, hx]

theorem oamAt_batch {ws : List OamWrite} (hws : ∀ w ∈ ws, w.off < 160) {s : State}
    (hs : Memory.wf 160 s.oam = true) (x : Nat) :
    oamAt (ws.foldl oamBatchWrite s) x = (lastOamWrite x ws).getD (oamAt s x) := by
  induction ws generalizing s with
  | nil => rfl
  | cons w ws ih =>
    obtain ⟨hw, hrest⟩ := List.forall_mem_cons.mp hws
    have hnext := oamBatchWrite_eq hw s
    have hwf : Memory.wf 160 (oamBatchWrite s w).oam = true := hnext ▸ Memory.wf_write w.val hs hw
    rw [List.foldl_cons, ih hrest hwf, hnext, oamAt_oamSet hs, lastOamWrite_cons]

theorem vramAt_batch {ws : List VramWrite} (hws : ∀ w ∈ ws, w.off < 0x2000 ∧ w.bank < 2) {s : State}
    (hs : Memory.wf 0x4000 s.vram = true) (b : Fin 2) (x : VOff) :
    vramAt (ws.foldl vramBatchWrite s) b x.toNat
      = (lastVramWrite b.val x.toNat ws).getD (vramAt s b x.toNat) := by
  induction ws generalizing s with
  | nil => rfl
  | cons w ws ih =>
    obtain ⟨⟨hoff, hbank⟩, hrest⟩ := List.forall_mem_cons.mp hws
    have hwf : Memory.wf 0x4000 (vramBatchWrite s w).vram = true := Memory.wf_write _ hs (vramKey_lt _ _)
    rw [List.foldl_cons, ih hrest hwf, vramAt_vramBatchWrite hs hoff hbank, lastVramWrite_cons]

end Sys2Proof.Machine

/-! PROOFS. The statements of spec/30_encoding.md. -/

namespace Sys2Proof.Proofs

open Sys2Proof.Machine

/-- Settles O3: class by class, from the encoder's word. -/
theorem decodeOfEncode : Obligations.DecodeOfEncode := fun _ _ h => decode_encode h

/-- Settles O4: the operation's own word is the word with an ignored `data` field cleared. -/
theorem encodeOfDecode : Obligations.EncodeOfDecode := by
  intro colorHw w i h
  obtain ⟨hwf, henc⟩ := encode_of_decode h
  rw [henc]
  exact ⟨hwf, mkWord_cls _ _ _ _, mkWord_arg _ _ _ _, rfl, OpWord.canonical_write⟩

/-- Settles O5: what decodes has a class, address, number or code of the spec. -/
theorem reservedWordsRefused : Obligations.ReservedWordsRefused := by
  refine ⟨fun colorHw w hres => ?_, fun s e hne => ?_⟩
  · cases hd : decode colorHw w with
    | error e => exact ⟨e, rfl, fun s rest hhw hin => step_undecodable hin (hhw ▸ hd)⟩
    | ok i =>
      exfalso
      obtain ⟨hcls, -, h⟩ | ⟨hcls, -, h⟩ | ⟨hcls, -, h⟩ | ⟨hcls, h⟩ := decode_ok hd
      · obtain ⟨-, -, hmapped⟩ := decodeRd_ok h
        bv_omega
      · obtain ⟨-, -, hmapped⟩ := decodeWr_ok h
        bv_omega
      · obtain ⟨e, -, harg⟩ := decodeEv_ok h
        have hnumber := event_arg_range e
        rw [harg] at hnumber
        bv_omega
      · obtain ⟨-, -, hcode⟩ := decodeCtl_ok h
        bv_omega
  · rw [exec_event, fireAdmitted_refused hne]

/-- Settles O18: the batch by induction on its entries. -/
theorem oamBatchApplies : Obligations.OamBatchApplies := by
  refine fun s ws => ⟨fun hwf hws => ?_, fun hbad => ⟨?_, fun colorHw => ?_⟩⟩
  · exact ⟨_, if_pos (oamBatch_ok_iff.mpr hws), oamBatch_frame ws s, oamAt_batch hws hwf⟩
  · exact if_neg (oamBatch_not_ok hbad)
  · exact (decode_ctlWord colorHw 0x0001#16 (.oam ws)).trans (if_neg (oamBatch_not_ok hbad))

/-- Settles O19: the batch by induction on its entries. -/
theorem vramBatchApplies : Obligations.VramBatchApplies := by
  refine fun s ws => ⟨fun hwf hws => ?_, fun hbad => ⟨?_, fun colorHw => ?_⟩⟩
  · exact ⟨_, if_pos (vramBatch_ok_iff.mpr hws), vramBatch_frame ws s, vramAt_batch hws hwf⟩
  · exact if_neg (vramBatch_not_ok hbad)
  · exact (decode_ctlWord colorHw 0x0002#16 (.vram ws)).trans (if_neg (vramBatch_not_ok hbad))

/-- Settles O1. -/
theorem stepRunsDecodedOperation : Obligations.StepRunsDecodedOperation := by
  intro s w rest i hin hd
  rw [step_op hin, stepOp, hd]

/-- Settles O2: each word is built from its fields. -/
theorem specWordsDecode : Obligations.SpecWordsDecode :=
  ⟨rfl, rfl, rfl, rfl, rfl, rfl, rfl, rfl, rfl⟩

/-- Settles O6: every EV operation is `fireAdmitted` of its event. -/
theorem eventFiresExactlyWhenDue : Obligations.EventFiresExactlyWhenDue := by
  intro s e
  rw [exec_event]
  split
  · rename_i hdue
    exact fireAdmitted_due hdue
  · rename_i hdue
    exact fireAdmitted_refused hdue

end Sys2Proof.Proofs

/-! PROOFS. A stretch of the timeline under ADVANCE: one event after another, each with a charge that ends
in time, to a line's end and to a frame's (rules R230, R232, R244, R260). -/

namespace Sys2Proof.Machine

/-! ## One event after another -/

/-- The state in which the Scheduler's loop goes on once an event due at `due` has fired. -/
def fireAt (e : Event) (due : Nat) (s : State) : State := { fire e { s with now := due } with charge := 0 }

/-- An ADVANCE that lasts to time `n` or longer does from `s` what it does from `t`. -/
def Leads (n : Nat) (s t : State) : Prop := ∀ target, n ≤ target → runUntil target s = runUntil target t

/-- The event is pending at its due time, and nothing is left to charge. -/
def Awaits (e : Event) (due : Nat) (s : State) : Prop := s.pending = some (e, due) ∧ s.charge = 0

theorem Leads.refl (n : Nat) (s : State) : Leads n s s := fun _ _ => rfl

theorem Leads.trans {n : Nat} {s t u : State} (h : Leads n s t) (g : Leads n t u) : Leads n s u :=
  fun target hn => (h target hn).trans (g target hn)

theorem Leads.later {m n : Nat} {s t : State} (h : Leads m s t) (hmn : m ≤ n) : Leads n s t :=
  fun target hn => h target (hmn.trans hn)

theorem eventDelay_now (e : Event) (n : Nat) (s : State) : eventDelay e { s with now := n } = eventDelay e s := by
  cases e <;> rfl

theorem eventCharge_now (e : Event) (n : Nat) (s : State) :
    eventCharge e { s with now := n } = eventCharge e s := by cases e <;> rfl

theorem nextEvent_now (e : Event) (n : Nat) (s : State) : nextEvent e { s with now := n } = nextEvent e s := by
  cases e <;> rfl

theorem eventLy_now (e : Event) (n : Nat) (s : State) : eventLy e { s with now := n } = eventLy e s := by
  cases e <;> rfl

theorem fireAt_ly (e : Event) (due : Nat) (s : State) : (fireAt e due s).ly = eventLy e s := by
  obtain ⟨-, -, -, hly⟩ := fire_sequence e { s with now := due }
  exact hly.trans (eventLy_now e due s)

/-- No event changes the length of a line. -/
theorem lineExtra_fireAt (e : Event) (due : Nat) (s : State) : lineExtra (fireAt e due s) = lineExtra s := by
  rw [fireAt, fire_frame]
  rfl

/-- The next event is awaited at its delay from this one. -/
theorem awaits_fireAt {e : Event} {due due' : Nat} {s : State} (h : due + eventDelay e s = due') :
    Awaits (nextEvent e s) due' (fireAt e due s) := by
  obtain ⟨hpending, -⟩ := fire_sequence e { s with now := due }
  rw [nextEvent_now, eventDelay_now] at hpending
  exact h ▸ ⟨hpending, rfl⟩

theorem fireAt_now (e : Event) (due : Nat) (s : State) : (fireAt e due s).now = due := by
  obtain ⟨-, -, hnow, -⟩ := fire_sequence e { s with now := due }
  exact hnow

/-- What the firing charges, where nothing was left to charge. -/
theorem fire_charge_of_settled (e : Event) (due : Nat) {s : State} (hc : s.charge = 0) :
    (fire e { s with now := due }).charge = eventCharge e s := by
  obtain ⟨-, hcharge, -⟩ := fire_sequence e { s with now := due }
  rw [hcharge, eventCharge_now]
  exact (congrArg (· + _) hc).trans (Nat.zero_add _)

/-- The awaited event fires, and its charge ends by time `n`. -/
theorem Awaits.leads {e : Event} {due n : Nat} {s : State} (h : Awaits e due s)
    (hn : due + eventCharge e s ≤ n) : Leads n s (fireAt e due s) := by
  obtain ⟨hp, hc⟩ := h
  intro target htarget
  have hdue : due ≤ target := by omega
  have hd : dueBy target s = some (e, due) := by
    rw [dueBy, hp]
    exact if_pos hdue
  have hmax : max target (due + (fire e { s with now := due }).charge) = target := by
    rw [fire_charge_of_settled e due hc]
    omega
  have hfuel := fuelled_fire (fuel := target + 7) hc hd (fuelled_runUntil target s)
  have hround := runLoop_fire (fuel := target + 7) hd
  rw [hmax] at hfuel hround
  have hs : ({ s with charge := 0 } : State) = s := by rw [← hc]
  have hnow : (fireAt e due s).now ≤ target := (fireAt_now e due s).trans_le hdue
  rw [runUntil, hs, hround]
  exact runLoop_fuel (target + 8) (target + 7) target _ (fireAt e due s) rfl hnow hnow
    (fuelled_runUntil target _) hfuel

/-- The same for an event that charges nothing. -/
theorem Awaits.leads_uncharged {e : Event} {due n : Nat} {s : State} (h : Awaits e due s)
    (hcharge : eventCharge e s = 0) (hn : due ≤ n) : Leads n s (fireAt e due s) :=
  h.leads (by rw [hcharge]; exact hn)

/-! ## One line (rules R244, R246, R252, R260) -/

/-- The event 4 units into line `k`. -/
def lineFirstEvent (k : Nat) : Event :=
  if k < 144 then .oamCont else if k < 153 then .vblankCont else .l153Cont

/-- The event that ends line `k`, short of line 153. -/
def lineLastEvent (k : Nat) : Event := if k < 144 then .hblankEnd else .vblankLine

/-- How long line `k` lasts, with `extra` more units for the visible ones (rules R11, R260). -/
def lineLength (extra k : Nat) : Nat := if k < 144 then 452 + extra else 456

theorem scrollPenalty_le (scx : Byte) : scrollPenalty scx ≤ 8 := by
  rw [scrollPenalty_eq]
  split_ifs <;> decide

/-- The penalty that HBlank's end takes off is the one that mode 3 added (rules R244, R246). -/
theorem penalty_sampled (due due' : Nat) (s : State) :
    (fireAt .hblankPre due' (fireAt .xferStart due s)).penalty = scrollPenalty s.scx := by
  simp [fireAt, fire, handle, handleHblankPre, handleXferStart]

/-- A visible line runs to its end, whatever the scroll and the DMA engine: the penalty moves HBlank and
not the line's end, and a block's charge ends before it. -/
theorem visibleLine_leads {s : State} {n : Nat} (h : Awaits .oamCont (n + 4) s) :
    ∃ u, Awaits .hblankEnd (n + (452 + lineExtra s)) u ∧ Leads (n + (452 + lineExtra s)) s u
      ∧ u.ly = s.ly ∧ lineExtra u = lineExtra s := by
  let search := fireAt .oamCont (n + 4) s
  let p := scrollPenalty search.scx
  let transfer := fireAt .xferStart (n + 84) search
  let ending := fireAt .hblankPre (n + 252 + p) transfer
  let hblank := fireAt .hblankStart (n + 256 + p) ending
  have hp : p ≤ 8 := scrollPenalty_le _
  have hly : hblank.ly = s.ly := by simp only [hblank, ending, transfer, search, fireAt_ly, eventLy]
  have hextra : lineExtra ending = lineExtra s := by simp only [ending, transfer, search, lineExtra_fireAt]
  have hdelay : eventDelay .hblankStart ending = 196 - p + lineExtra s := by
    rw [eventDelay, hextra, penalty_sampled]
  have hcharge := eventCharge_le .hblankStart ending
  have hsearch : Awaits .xferStart (n + 84) search := awaits_fireAt rfl
  have htransfer : Awaits .hblankPre (n + 252 + p) transfer :=
    awaits_fireAt (by show n + 84 + (168 + p) = _; omega)
  have hending : Awaits .hblankStart (n + 256 + p) ending :=
    awaits_fireAt (by show n + 252 + p + 4 = _; omega)
  have hhblank : Awaits .hblankEnd (n + (452 + lineExtra s)) hblank := awaits_fireAt (by omega)
  have hlead : Leads (n + (452 + lineExtra s)) s hblank :=
    (((h.leads_uncharged rfl (by omega)).trans
      (hsearch.leads_uncharged rfl (by omega))).trans
      (htransfer.leads_uncharged rfl (by omega))).trans (hending.leads (by omega))
  exact ⟨hblank, hhblank, hlead, hly, (lineExtra_fireAt ..).trans hextra⟩

/-- A line of vertical blank runs to its end (rules R251, R252). -/
theorem vblankLine_leads {s : State} {n : Nat} (h : Awaits .vblankCont (n + 4) s) :
    ∃ u, Awaits .vblankLine (n + 456) u ∧ Leads (n + 456) s u ∧ u.ly = s.ly ∧ lineExtra u = lineExtra s :=
  ⟨fireAt .vblankCont (n + 4) s, awaits_fireAt rfl, h.leads_uncharged rfl (by omega),
    fireAt_ly .., lineExtra_fireAt ..⟩

/-- Any line but 153 runs to its end. -/
theorem lineEnd_leads {s : State} {n k : Nat} (h : Awaits (lineFirstEvent k) (n + 4) s) (hk : k < 153) :
    ∃ u, Awaits (lineLastEvent k) (n + lineLength (lineExtra s) k) u
      ∧ Leads (n + lineLength (lineExtra s) k) s u ∧ u.ly = s.ly ∧ lineExtra u = lineExtra s := by
  unfold lineFirstEvent at h
  unfold lineLastEvent lineLength
  split_ifs at h ⊢
  · exact visibleLine_leads h
  · exact vblankLine_leads h

/-- A line's last event begins the next line. -/
theorem lineLastEvent_next {s : State} {k : Nat} (hly : s.ly.toNat = k) (hk : k < 153) :
    nextEvent (lineLastEvent k) s = lineFirstEvent (k + 1) ∧ eventDelay (lineLastEvent k) s = 4
    ∧ eventCharge (lineLastEvent k) s = 0 ∧ (eventLy (lineLastEvent k) s).toNat = k + 1 := by
  have hsucc : (s.ly + 1).toNat = k + 1 := by rw [byte_succ (by omega), hly]
  have h144 : s.ly + 1 = 144 ↔ k + 1 = 144 := by rw [← hsucc, ← BitVec.toNat_inj]; rfl
  have h153 : s.ly + 1 = 153 ↔ k + 1 = 153 := by rw [← hsucc, ← BitVec.toNat_inj]; rfl
  unfold lineLastEvent lineFirstEvent
  split
  · refine ⟨?_, rfl, rfl, hsucc⟩
    by_cases hlast : k + 1 = 144
    · simp only [nextEvent, h144, hlast]
      rfl
    · have hvisible : k + 1 < 144 := by omega
      simp only [nextEvent, h144, hlast, hvisible, if_true, if_false]
  · refine ⟨?_, rfl, rfl, hsucc⟩
    by_cases hlast : k + 1 = 153
    · simp only [nextEvent, h153, hlast]
      rfl
    · have hvblank : ¬ k + 1 < 144 := by omega
      have hmore : k + 1 < 153 := by omega
      simp only [nextEvent, h153, hlast, hvblank, hmore, if_true, if_false]

/-- From the start of any line but 153 to the start of the next. -/
theorem line_leads {s : State} {n k : Nat} (h : Awaits (lineFirstEvent k) (n + 4) s) (hly : s.ly.toNat = k)
    (hk : k < 153) :
    ∃ t, Awaits (lineFirstEvent (k + 1)) (n + lineLength (lineExtra s) k + 4) t
      ∧ Leads (n + lineLength (lineExtra s) k) s t ∧ t.ly.toNat = k + 1 ∧ lineExtra t = lineExtra s := by
  obtain ⟨u, hu, hlead, hsame, hextra⟩ := lineEnd_leads h hk
  obtain ⟨hnext, hdelay, hcharge, hsucc⟩ := lineLastEvent_next ((congrArg _ hsame).trans hly) hk
  refine ⟨fireAt (lineLastEvent k) (n + lineLength (lineExtra s) k) u, ?_, ?_, ?_, ?_⟩
  · exact hnext ▸ awaits_fireAt (by rw [hdelay])
  · exact hlead.trans (hu.leads_uncharged hcharge le_rfl)
  · rw [fireAt_ly, hsucc]
  · rw [lineExtra_fireAt, hextra]

/-! ## A frame (rules R256 to R260) -/

/-- When line `k` begins, counted from the start of line 0. -/
def lineStartTime (extra k : Nat) : Nat := min k 144 * (452 + extra) + (k - 144) * 456

theorem lineStartTime_zero (extra : Nat) : lineStartTime extra 0 = 0 := Nat.zero_mul _

theorem lineStartTime_succ (extra k : Nat) :
    lineStartTime extra (k + 1) = lineStartTime extra k + lineLength extra k := by
  unfold lineStartTime lineLength
  split
  · rw [show min (k + 1) 144 = k + 1 by omega, show min k 144 = k by omega, Nat.succ_mul]
    omega
  · rw [show min (k + 1) 144 = min k 144 by omega]
    omega

/-- From the start of line 0 to the start of line `k`. -/
theorem lines_lead {s : State} {n : Nat} (h : Awaits .oamCont (n + 4) s) (hly : s.ly = 0) {k : Nat}
    (hk : k ≤ 153) :
    ∃ t, Awaits (lineFirstEvent k) (n + lineStartTime (lineExtra s) k + 4) t
      ∧ Leads (n + lineStartTime (lineExtra s) k) s t ∧ t.ly.toNat = k ∧ lineExtra t = lineExtra s := by
  induction k with
  | zero => rw [lineStartTime_zero]; exact ⟨s, h, .refl _ s, congrArg BitVec.toNat hly, rfl⟩
  | succ k ih =>
    obtain ⟨t, ht, hlead, hline, hextra⟩ := ih (by omega)
    obtain ⟨u, hu, hlead', hline', hextra'⟩ := line_leads ht hline (by omega)
    rw [hextra] at hu hlead' hextra'
    rw [Nat.add_assoc n] at hu hlead'
    rw [lineStartTime_succ]
    exact ⟨u, hu, (hlead.later (Nat.add_le_add_left (Nat.le_add_right _ _) n)).trans hlead', hline', hextra'⟩

/-- Line 153 runs to the start of line 0 (rules R257 to R259). -/
theorem line153_leads {s : State} {n : Nat} (h : Awaits .l153Cont (n + 4) s) :
    ∃ t, Awaits .line0Start (n + 456) t ∧ Leads (n + 456) s t := by
  let ending := fireAt .l153Cont (n + 4) s
  let frameEnd := fireAt .l153End (n + 8) ending
  have hending : Awaits .l153End (n + 8) ending := awaits_fireAt rfl
  have hframeEnd : Awaits .l153FrameEnd (n + 12) frameEnd := awaits_fireAt rfl
  refine ⟨fireAt .l153FrameEnd (n + 12) frameEnd, awaits_fireAt rfl, ?_⟩
  exact ((h.leads_uncharged rfl (by omega)).trans
    (hending.leads_uncharged rfl (by omega))).trans (hframeEnd.leads_uncharged rfl (by omega))

/-- From one EV_LINE0_START to the next. -/
theorem frame_leads {s : State} {n : Nat} (h : Awaits .line0Start n s) :
    ∃ t, Awaits .line0Start (n + (144 * (452 + lineExtra s) + 10 * 456)) t
      ∧ Leads (n + (144 * (452 + lineExtra s) + 10 * 456)) s t := by
  have hstart : Awaits .oamCont (n + 4) (fireAt .line0Start n s) := awaits_fireAt rfl
  obtain ⟨t, ht, hlines, -, -⟩ := lines_lead hstart (fireAt_ly ..) (le_refl 153)
  obtain ⟨u, hu, hlast⟩ := line153_leads ht
  rw [lineExtra_fireAt] at hlines hu hlast
  have hvisible : lineStartTime (lineExtra s) 153 = 144 * (452 + lineExtra s) + 9 * 456 := rfl
  have hend : n + lineStartTime (lineExtra s) 153 + 456
      = n + (144 * (452 + lineExtra s) + 10 * 456) := by omega
  rw [hend] at hu hlast
  exact ⟨u, hu, ((h.leads_uncharged rfl (by omega)).trans (hlines.later (by omega))).trans hlast⟩

/-! ## The end of an ADVANCE -/

/-- An ADVANCE that ends where an event is awaited fires it, and ends there if its successor is later. -/
theorem Leads.exec_advance {s u : State} {n : Nat} {e : Event} (h : Leads (s.now + n) s u)
    (hu : Awaits e (s.now + n) u) (hcharge : eventCharge e u = 0) (hdelay : 0 < eventDelay e u) :
    exec (.advance n) s = .next (fireAt e (s.now + n) u) := by
  have hlead := h.trans (hu.leads_uncharged hcharge le_rfl)
  obtain ⟨hpending, hidle⟩ := awaits_fireAt (e := e) (due := s.now + n) (s := u) rfl
  have hquiet : ∀ e' due, (fireAt e (s.now + n) u).pending = some (e', due) → s.now + n < due := by
    intro e' due hp
    obtain ⟨-, rfl⟩ := Prod.mk.inj (Option.some.inj (hpending.symm.trans hp))
    omega
  have hnow := fireAt_now e (s.now + n) u
  rw [exec, execAdvance, hlead _ le_rfl, runUntil_quiet hquiet]
  clear hpending hquiet hlead
  generalize fireAt e (s.now + n) u = w at hnow hidle ⊢
  rw [hnow, Nat.max_self, ← hnow, ← hidle]

end Sys2Proof.Machine

/-! PROOFS. The STAT line follows its sources through every step (rules R210 to R212). -/

namespace Sys2Proof.Machine

/-- A recomputation settles the line. -/
theorem lineSettled_recompute (s : State) : LineSettled (recompute s) := by
  rw [recompute_eq]
  rfl

/-- Without a source and a comparison value a low line is settled. -/
theorem lineSettled_low {s : State} (hsrc : s.src = .none) (hcmp : s.cmp = none) (hline : s.statLine = false) :
    LineSettled s := hline.trans (statSources_none hsrc hcmp).symm

/-- Every handler that changes the pending source or the comparison value recomputes, and changes neither
the line nor a source after that; EV_GLITCH_XFER and EV_HBLANK_START change neither. -/
theorem fire_lineSettled (e : Event) {s : State} (hs : LineSettled s) : LineSettled (fire e s) := by
  cases e <;> simp only [fire, handle]
  case glitchXfer =>
    simp only [handleGlitchXfer, schedule, lockSet_eq]
    exact hs
  case glitchHblank =>
    simp only [handleGlitchHblank, schedule, setSrc_def]
    rw [opportunity_eq]
    exact lineSettled_recompute _
  case line0Start =>
    rw [handleLine0Start, lineStart_eq]
    rfl
  case oamCont => exact lineSettled_recompute _
  case xferStart => exact lineSettled_recompute _
  case hblankPre => exact lineSettled_recompute _
  case hblankStart =>
    simp only [handleHblankStart, schedule, composeLine, lockSet_eq]
    rw [opportunity_eq]
    exact hs
  case hblankEnd =>
    simp only [handleHblankEnd]
    split
    · rw [vblankEntry_eq]
      rfl
    · rw [lineStart_eq]
      rfl
  case vblankCont =>
    simp only [handleVblankCont, schedule, setSrc_def]
    rw [vblankAtCont_eq]
    exact lineSettled_recompute _
  case vblankLine =>
    simp only [handleVblankLine]
    split <;> exact lineSettled_recompute _
  case l153Cont => exact lineSettled_recompute _
  case l153End => exact lineSettled_recompute _
  case l153FrameEnd => exact lineSettled_recompute _

/-- LCD enable leaves no source, LCD disable recomputes. -/
theorem lcdcWrite_lineSettled (v : Byte) {s : State} (hs : LineSettled s) : LineSettled (lcdcWrite v s) := by
  obtain ⟨-, heq⟩ | ⟨-, -, heq⟩ | ⟨-, -, heq⟩ := lcdcWrite_cases v s
  · rw [heq]
    exact hs
  · rw [heq, lcdEnable_eq]
    exact lineSettled_low rfl rfl rfl
  · rw [heq, lcdDisable_eq]
    rfl

theorem hdma5Write_lineSettled (v : Byte) {s : State} (hs : LineSettled s) : LineSettled (hdma5Write v s) := by
  rw [hdma5Write_frame]
  exact hs

theorem runUntil_lineSettled (target : Nat) {s : State} (hs : LineSettled s) : LineSettled (runUntil target s) :=
  runUntil_preserves (fun _ _ => id) (fun _ _ => id) (fun _ e hs _ => fire_lineSettled e hs) target s hs

theorem settle_lineSettled {s : State} (hs : LineSettled s) : LineSettled (settle s) :=
  settle_preserves (fun _ _ => id) (fun _ _ => id) (fun _ e hs _ => fire_lineSettled e hs) s hs

theorem exec_lineSettled {i : Instr} {s t : State} (hs : LineSettled s) (h : exec i s = .next t) :
    LineSettled t := by
  cases exec_effect h with
  | event e _ => exact settle_lineSettled (fire_lineSettled e hs)
  | advance n => exact runUntil_lineSettled _ hs
  | hdma5 v => exact settle_lineSettled (hdma5Write_lineSettled v hs)
  | lcdc v => exact lcdcWrite_lineSettled v hs
  | stat | statDmg | lyc => exact lineSettled_recompute _
  | reset h => cases h; exact lineSettled_low rfl rfl rfl
  | palette ctx v h => rw [h, capture_eq]; exact hs
  | colour _ h | plain h => rw [h]; exact hs

theorem step_lineSettled {s t : State} (hs : LineSettled s) (h : step s = .next t) : LineSettled t := by
  obtain ⟨i, hi⟩ | ⟨n, rfl⟩ | ht := step_cases h
  · exact exec_lineSettled (s := takeInput s) hs hi
  · rw [elapse_eq]; exact hs
  · rw [ht]; exact hs

/-! ## The write bug (rules R216, R815) -/

/-- With every source enabled the line is high where LY=LYC or a source is pending. -/
theorem statSources_allEnabled (s : State) :
    statSources { s with statEn := 0b1111#4 } = true ↔ s.cmp = some s.lyc ∨ s.src ≠ .none := by
  cases s.src <;> simp [statSources, lycMatch]

/-- A source that the written value enables was true with every source enabled too. -/
theorem statSources_of_enabled {s : State} {en : BitVec 4} (h : statSources { s with statEn := en } = true) :
    statSources { s with statEn := 0b1111#4 } = true := by
  rw [statSources_allEnabled]
  simp only [statSources, lycMatch, Bool.or_eq_true, Bool.and_eq_true, beq_iff_eq] at h
  obtain ((⟨-, hlyc⟩ | ⟨-, hsrc⟩) | ⟨-, hsrc⟩) | ⟨-, hsrc⟩ := h
  · exact .inl hlyc
  all_goals exact .inr (by rw [hsrc]; decide)

/-- The write bug as one record update: only its first recomputation, with every source enabled, can raise
the line. -/
theorem recompute_writeBug (s : State) (en : BitVec 4) :
    recompute { recompute { s with statEn := 0b1111#4 } with statEn := en } = { s with
      statEn := en
      statLine := statSources { s with statEn := en }
      outputs := s.outputs ++ statEdge { s with statEn := 0b1111#4 } } := by
  have hedge : statEdge { s with
      statEn := en
      statLine := statSources { s with statEn := 0b1111#4 }
      outputs := s.outputs ++ statEdge { s with statEn := 0b1111#4 } } = [] :=
    if_neg fun ⟨hnew, hlow⟩ => by
      have hhigh := statSources_of_enabled (s := s) (en := en) hnew
      exact absurd (hhigh.symm.trans hlow) (by decide)
  simp only [recompute_eq, hedge, List.append_nil]
  rfl

end Sys2Proof.Machine

/-! PROOFS. What is left of two handlers' helpers in the cases the statements name: an HBlank entry without
a block to copy, and the VBlank request of line 144 (rules R10, R251, R515). -/

namespace Sys2Proof.Machine

/-- Without a block due an HBlank entry charges nothing. -/
theorem opportunityCharge_idle {s : State} (h : hdmaDue s = false) : opportunityCharge s = 0 := by
  rw [opportunityCharge, h]
  rfl

/-- No block is copied in a state with the engine and the configuration of one where none is due. -/
theorem opportunity_idle {s t : State} (h : hdmaDue s = false) (hengine : t.hdma = s.hdma)
    (hcfg : t.cfg = s.cfg) : hdmaHBlankOpportunity t = t := by
  have hidle : hdmaDue t = false := by simpa only [hdmaDue, colorMode, hengine, hcfg] using h
  rw [hdmaHBlankOpportunity, hidle]
  rfl

/-- The VBlank request at the 4-unit mark (rules R10, R251). -/
theorem vblankAtCont_request (s : State) :
    vblankAtCont s = { s with outputs := s.outputs
      ++ (if s.ly = 144 ∧ s.cfg.vblankIrqLate = true then [(s.now, .irqVblank)] else []) } := by
  unfold vblankAtCont
  split
  · rfl
  · rw [List.append_nil]

end Sys2Proof.Machine

/-! PROOFS. The statements of spec/41_state_machine.md. -/

namespace Sys2Proof.Proofs

open Sys2Proof.Machine

/-- Settles O33: the line's last event falls due at the wait's end, and is the start of the next line. -/
theorem visibleLineLength : Obligations.VisibleLineLength := by
  intro s hc hp hly
  obtain ⟨u, hu, hlead, hsame, -⟩ := visibleLine_leads ⟨hp, hc⟩
  refine ⟨_, hlead.exec_advance hu rfl (Nat.zero_lt_succ 3), fireAt_now .., ?_⟩
  rw [← hsame] at hly ⊢
  by_cases hlast : u.ly + 1 = 144
  · have h143 : ¬ u.ly.toNat < 143 := by bv_omega
    rw [fireAt, fire, handle, handleHblankEnd, if_pos hlast, vblankEntry_eq]
    exact ⟨rfl, rfl, rfl, fun h => absurd h h143, fun _ => ⟨rfl, rfl⟩⟩
  · have h143 : u.ly ≠ 143 := fun h => hlast (by rw [h]; rfl)
    have hsrc : u.ly + 1 ≠ 0 := by bv_omega
    rw [fireAt, fire, handle, handleHblankEnd, if_neg hlast, lineStart_eq]
    exact ⟨rfl, if_pos (.inl hsrc), rfl, fun _ => ⟨rfl, rfl⟩, fun h => absurd h h143⟩

/-- Settles O34: the frame's last event falls due at the wait's end, and is the start of line 0. -/
theorem frameLength : Obligations.FrameLength := by
  intro s hc hp frame
  obtain ⟨u, hu, hlead⟩ := frame_leads ⟨hp, hc⟩
  refine ⟨_, hlead.exec_advance hu rfl (Nat.zero_lt_succ 3), fireAt_now .., ?_⟩
  rw [fireAt, fire, handle, handleLine0Start, lineStart_eq]
  exact ⟨rfl, rfl, rfl, rfl⟩

/-- Settles O57: every effect of an operation leaves the line as its sources say. -/
theorem stepKeepsLineSettled : Obligations.StepKeepsLineSettled := fun _ _ hs h => step_lineSettled hs h

/-- Settles O7: reads return the register. -/
theorem lcdRegisterReads : Obligations.LcdRegisterReads := fun _ => ⟨rfl, rfl, rfl⟩

/-- Settles O9: the line's new value is the OR of the sources. -/
theorem recomputeIsEdgeTriggered : Obligations.RecomputeIsEdgeTriggered := by
  refine fun s => ⟨statSources s, ?_, recompute_eq s⟩
  simp only [statSources, lycMatch, Bool.or_eq_true, Bool.and_eq_true, beq_iff_eq, or_assoc]

/-- Settles O10: both writes are one recomputation. -/
theorem statAndLycWrites : Obligations.StatAndLycWrites := fun s v =>
  ⟨congrArg Host.Outcome.next (recompute_eq { s with statEn := statEnables v }),
    congrArg Host.Outcome.next (recompute_eq { s with lyc := v })⟩

/-- Settles O11: the first recomputation's request, the second one's line. -/
theorem statWriteBug : Obligations.StatWriteBug := by
  intro s v
  rw [exec, execWrStatDmg, recompute_writeBug]
  simp only [statEdge, statSources_allEnabled, and_comm (b := s.statLine = false)]
  rfl

/-- Settles O12: the write is dropped. -/
theorem lyWriteIsNoOp : Obligations.LyWriteIsNoOp := fun _ _ => rfl

/-- Settles O13: the three things a write to LCDC can do; enable finds no source true. -/
theorem lcdcWrite : Obligations.LcdcWrite := by
  refine fun s v => ⟨fun h => ?_, fun hs hv => ?_, fun hs hv => ?_⟩
  · rw [exec, execWrLcdc, lcdcWrite_same h]
  · intro t
    have hquiet : statSources t = false := statSources_none rfl rfl
    have hedge : statEdge t = [] := by simp [statEdge, hquiet]
    rw [exec, execWrLcdc, lcdcWrite_enable hs hv, lcdEnable_eq, hquiet, hedge, List.append_nil]
  · have hlog : ∀ p : Phase, inVblank p = true ↔ p = .vblank ∨ p = .l153 := by simp [inVblank]
    rw [exec, execWrLcdc, lcdcWrite_disable hs hv, lcdDisable_eq]
    simp only [hlog]
    rfl

/-- Settles O22: both handlers of the glitch line. -/
theorem glitchLine : Obligations.GlitchLine := by
  refine fun s hc => ⟨fun hp => ?_, fun hp hdma => ?_⟩
  · refine (exec_event_uncharged hp hc rfl).trans (congrArg Host.Outcome.next ?_)
    simp only [handle, handleGlitchXfer, schedule, lockSet_eq]
    rfl
  · refine (exec_event_uncharged hp hc (opportunityCharge_idle hdma)).trans (congrArg Host.Outcome.next ?_)
    simp only [handle, handleGlitchHblank, schedule, setSrc_def, lockSet_eq, recompute_eq]
    rw [opportunity_idle hdma] <;> rfl

/-- Settles O24: the handler. -/
theorem oamSearch : Obligations.OamSearch := by
  intro s hp hc
  refine (exec_event_uncharged hp hc rfl).trans (congrArg Host.Outcome.next ?_)
  simp only [handle, handleOamCont, schedule, setCmp_def, lockSet_eq, recompute_eq]
  rfl

/-- Settles O26: the handler. -/
theorem hblankSourceLeads : Obligations.HblankSourceLeads := by
  intro s hp hc
  refine (exec_event_uncharged hp hc rfl).trans (congrArg Host.Outcome.next ?_)
  simp only [handle, handleHblankPre, schedule, setSrc_def, recompute_eq]
  rfl

/-- Settles O27: without a block to copy, the unlock and the composition alone. -/
theorem hblankComposes : Obligations.HblankComposes := by
  intro s hp hc hdma
  refine (exec_event_uncharged hp hc (opportunityCharge_idle hdma)).trans (congrArg Host.Outcome.next ?_)
  simp only [handle, handleHblankStart, schedule, composeLine, lockSet_eq]
  rw [opportunity_idle hdma] <;> rfl

/-- Settles O28: the next line is not the first of vertical blank, nor line 0. -/
theorem nextLineStarts : Obligations.NextLineStarts := by
  intro s hp hc hly
  have hline : s.ly + 1 ≠ 144 := by bv_omega
  have hnonzero : s.ly + 1 ≠ 0 := by bv_omega
  have hsrc : lineStartSrc { s with ly := s.ly + 1, pending := none } = .oam := if_pos (.inl hnonzero)
  refine (exec_event_uncharged hp hc rfl).trans (congrArg Host.Outcome.next ?_)
  rw [handle, handleHblankEnd, if_neg hline, lineStart_eq, hsrc]
  rfl

/-- Settles O30: the line after line 152 is line 153. -/
theorem vblankLines : Obligations.VblankLines := by
  refine fun s hc => ⟨fun hp => ?_, fun hp => ?_⟩
  · refine (exec_event_uncharged hp hc rfl).trans (congrArg Host.Outcome.next ?_)
    simp only [handle, handleVblankCont, schedule, setSrc_def, recompute_eq, vblankAtCont_request]
    rfl
  · have hnext : s.ly + 1 = 153 ↔ s.ly = 152 := by bv_omega
    refine (exec_event_uncharged hp hc rfl).trans (congrArg Host.Outcome.next ?_)
    rw [handle, handleVblankLine]
    by_cases hlast : s.ly = 152
    · have h153 : s.ly + 1 = 153 := hnext.mpr hlast
      rw [if_pos h153, if_pos hlast, if_pos hlast]
      simp only [line153Start, schedule, setCmp_def, setLY_def, emit, recompute_eq, h153]
      rfl
    · rw [if_neg (mt hnext.mp hlast), if_neg hlast, if_neg hlast]
      simp only [schedule, setCmp_def, setLY_def, emit, recompute_eq]
      rfl

/-- Settles O31: the three handlers. -/
theorem lineOneFiftyThree : Obligations.LineOneFiftyThree := by
  refine fun s hc => ⟨fun hp => ?_, fun hp => ?_, fun hp => ?_⟩ <;>
    refine (exec_event_uncharged hp hc rfl).trans (congrArg Host.Outcome.next ?_)
  · simp only [handle, handleL153Cont, schedule, setCmp_def, recompute_eq]
    rfl
  · simp only [handle, handleL153End, schedule, setCmp_def, storeLY_def, emit, recompute_eq]
    rfl
  · simp only [handle, handleL153FrameEnd, schedule, setCmp_def, recompute_eq]
    rfl

end Sys2Proof.Proofs

/-! PROOFS. The renderer's picture and passes: what composition can see of a state (rule R340), which
sprites a line has (rule R330), which of them a column shows (rules R333, R334), and the numbers a pixel
is read by (rules R39, R461, R462). -/

namespace Sys2Proof.Machine

/-! ## What composition reads (rule R340) -/

/-- The state reduced to R340's list: the rest is as after reset, and of the configuration only the
colour mode, the shades and the conversion are left. -/
def picture (s : State) : State :=
  { State.reset with
    lcdc := s.lcdc, scy := s.scy, scx := s.scx, wy := s.wy, wx := s.wx, windowLine := s.windowLine
    bgp := s.bgp, obp0 := s.obp0, obp1 := s.obp1, colz := s.colz
    bgCram := s.bgCram, objCram := s.objCram, oam := s.oam, vram := s.vram
    cfg := { State.reset.cfg with
      colorHw := true, colorCart := colorMode s, gray := s.cfg.gray, rgb := s.cfg.rgb } }

/-- Agreeing on R340's list is having the same picture. -/
theorem SamePicture.picture_eq {s t : State} (h : SamePicture s t) : picture s = picture t := by
  simp only [SamePicture] at h
  simp only [picture, h]

/-- A row is composed from the picture alone. -/
theorem composeRow_picture (s : State) (ly : Nat) : composeRow (picture s) ly = composeRow s ly := rfl

/-- The window line counter after a line is the picture's. -/
theorem composeLine_windowLine_picture (s : State) (ly : Nat) :
    (composeLine ly (picture s)).windowLine = (composeLine ly s).windowLine := rfl

/-- R320's condition, as one condition on the registers. -/
theorem windowVisible_iff (s : State) (ly : Nat) :
    windowVisible s ly = true ↔ s.lcdc.getLsbD 5 = true ∧ (colorMode s = true ∨ s.lcdc.getLsbD 0 = true)
      ∧ s.wy.toNat ≤ ly ∧ s.wx.toNat ≤ 166 := by
  simp only [windowVisible, winOn, bgOn, Bool.and_eq_true, Bool.or_eq_true, decide_eq_true_eq, and_assoc]

/-! ## The sprites of a line (rules R330, R404) -/

/-- The sprites of the table on line `ly`, in table order. -/
def spritesOnLine (s : State) (ly : Nat) : List Nat := (List.range 40).filter (spriteOnLine s ly)

/-- Being on the line, by the sprite's Y byte and the object height alone. -/
theorem mem_spritesOnLine {s : State} {ly k : Nat} :
    k ∈ spritesOnLine s ly ↔ k < 40 ∧ (oamAt s (4 * k)).toNat ≤ ly + 16
      ∧ ly + 16 < (oamAt s (4 * k)).toNat + (if s.lcdc.getLsbD 2 = true then 16 else 8) := by
  simp only [spritesOnLine, spriteOnLine, List.mem_filter, List.mem_range, Bool.and_eq_true,
    decide_eq_true_eq]
  rfl

/-- Table order is rising order. -/
theorem spritesOnLine_ascending (s : State) (ly : Nat) : (spritesOnLine s ly).Pairwise (· < ·) :=
  List.pairwise_lt_range.filter _

/-- What a cut of an ascending list leaves out is above all that it keeps, and the cut is full. -/
theorem take_full_below {l : List Nat} (hl : l.Pairwise (· < ·)) {n k : Nat} (hk : k ∈ l)
    (hout : k ∉ l.take n) : (l.take n).length = n ∧ ∀ j ∈ l.take n, j < k := by
  rw [← List.take_append_drop n l] at hl hk
  have hdrop : k ∈ l.drop n := (List.mem_append.mp hk).resolve_left hout
  have hlen := List.length_pos_of_mem hdrop
  rw [List.length_drop] at hlen
  exact ⟨List.length_take_of_le (by omega), fun j hj => (List.pairwise_append.mp hl).2.2 j hj k hdrop⟩

/-- R330's selection is a cut of the line's sprites. -/
theorem selectedSprites_eq (s : State) (ly : Nat) : selectedSprites s ly = (spritesOnLine s ly).take 10 := rfl

/-! ## The sprite pass at one column (rules R332 to R334) -/

/-- R334's order, as one condition. -/
theorem beats_iff (s : State) (j k : Nat) : beats s j k = true ↔
    if colorMode s = true then j < k
    else (sprite s j).x.toNat < (sprite s k).x.toNat
      ∨ ((sprite s j).x.toNat = (sprite s k).x.toNat ∧ j < k) := by
  unfold beats
  split <;> simp

/-- Of two sprites at most one beats the other. -/
theorem not_beats_of_beats {s : State} {j k : Nat} (h : beats s j k = true) : beats s k j = false := by
  rw [beats_iff] at h
  rw [Bool.eq_false_iff, ne_eq, beats_iff]
  split at h
  next hcolor => rw [if_pos hcolor]; omega
  next hcolor => rw [if_neg hcolor]; omega

/-- The column as sprite `k` leaves it when it draws there. -/
def spriteClaim (s : State) (ly x k : Nat) : Claim :=
  ⟨some k, spriteColor s (sprite s k) (spriteIdx s ly (sprite s k) (x + 8 - (sprite s k).x.toNat))⟩

/-- A sprite without an unoccluded opaque pixel leaves the column as it is. -/
theorem drawSpriteColumn_of_not_draws {s : State} {ly x : Nat} {bg : Layer} {k : Nat}
    (h : ¬ drawsPixel s ly x bg k) (c : Claim) : drawSpriteColumn s ly x bg c k = c := by
  simp only [drawSpriteColumn, spritePixel]
  split
  next hx =>
    split
    next => rfl
    next hidx =>
      rw [if_pos]
      rw [← Bool.not_eq_false]
      exact fun hocc => h ⟨hx.1, hx.2, hidx, hocc⟩
  next => rfl

/-- A sprite that draws takes the column unless who holds it beats it. -/
theorem drawSpriteColumn_of_draws {s : State} {ly x : Nat} {bg : Layer} {k : Nat}
    (h : drawsPixel s ly x bg k) (c : Claim) :
    drawSpriteColumn s ly x bg c k = if claimedOver s c k then c else spriteClaim s ly x k := by
  obtain ⟨hleft, hright, hidx, hocc⟩ := h
  simp only [drawSpriteColumn, spritePixel]
  rw [if_pos ⟨hleft, hright⟩, if_neg hidx, hocc]
  rfl

/-- Where no sprite draws, the pass leaves the column as it is. -/
theorem foldl_draw_of_none {s : State} {ly x : Nat} {bg : Layer} {sel : List Nat}
    (h : ∀ k ∈ sel, ¬ drawsPixel s ly x bg k) (c : Claim) : sel.foldl (drawSpriteColumn s ly x bg) c = c := by
  induction sel with
  | nil => rfl
  | cons k rest ih =>
    obtain ⟨hk, hrest⟩ := List.forall_mem_cons.mp h
    rw [List.foldl_cons, drawSpriteColumn_of_not_draws hk, ih hrest]

/-- Sprite `k` beats every other sprite of `sel` that draws in the column. -/
def Wins (s : State) (ly x : Nat) (bg : Layer) (sel : List Nat) (k : Nat) : Prop :=
  ∀ j ∈ sel, drawsPixel s ly x bg j → j ≠ k → beats s k j = true

/-- Once the winner holds the column, it keeps it. -/
theorem foldl_draw_keeps_winner {s : State} {ly x : Nat} {bg : Layer} {sel : List Nat} {k : Nat}
    (hwin : Wins s ly x bg sel k) :
    sel.foldl (drawSpriteColumn s ly x bg) (spriteClaim s ly x k) = spriteClaim s ly x k := by
  induction sel with
  | nil => rfl
  | cons j rest ih =>
    obtain ⟨hj, hrest⟩ := List.forall_mem_cons.mp hwin
    have hkeep : drawSpriteColumn s ly x bg (spriteClaim s ly x k) j = spriteClaim s ly x k := by
      by_cases hdraw : drawsPixel s ly x bg j
      · rw [drawSpriteColumn_of_draws hdraw]
        by_cases hjk : j = k
        · rw [hjk, ite_self]
        · exact if_pos (hj hdraw hjk)
      · exact drawSpriteColumn_of_not_draws hdraw _
    rw [List.foldl_cons, hkeep, ih hrest]

/-- From a column that nobody holds against the winner, the pass ends with the winner's pixel: those
before it are beaten, those after it do not beat it. -/
theorem foldl_draw_winner {s : State} {ly x : Nat} {bg : Layer} {sel : List Nat} {k : Nat}
    (hk : k ∈ sel) (hdraws : drawsPixel s ly x bg k) (hwin : Wins s ly x bg sel k) {c : Claim}
    (hc : claimedOver s c k = false) :
    sel.foldl (drawSpriteColumn s ly x bg) c = spriteClaim s ly x k := by
  induction sel generalizing c with
  | nil => cases hk
  | cons j rest ih =>
    obtain ⟨hj, hrest⟩ := List.forall_mem_cons.mp hwin
    rw [List.foldl_cons]
    by_cases hjk : j = k
    · rw [hjk, drawSpriteColumn_of_draws hdraws, hc]
      exact foldl_draw_keeps_winner hrest
    · refine ih ((List.mem_cons.mp hk).resolve_left (Ne.symm hjk)) hrest ?_
      by_cases hdraw : drawsPixel s ly x bg j
      · rw [drawSpriteColumn_of_draws hdraw]
        split
        · exact hc
        · exact not_beats_of_beats (hj hdraw hjk)
      · rwa [drawSpriteColumn_of_not_draws hdraw]

/-! ## The numbers of a pixel -/

/-- A colour index from its planes, as a number (rule R461). -/
theorem planePixel_toNat (lo hi : Byte) (c : Nat) :
    (planePixel lo hi c).toNat = 2 * (hi.getLsbD (7 - c)).toNat + (lo.getLsbD (7 - c)).toNat := by
  unfold planePixel
  cases hi.getLsbD (7 - c) <;> cases lo.getLsbD (7 - c) <;> rfl

/-- A palette's field, as a number (rule R39). -/
theorem paletteField_eq (pal : Byte) (i : BitVec 2) :
    paletteField pal i = BitVec.ofNat 2 (pal.toNat / 4 ^ i.toNat % 4) := by
  apply BitVec.eq_of_toNat_eq
  simp [paletteField, Nat.shiftRight_eq_div_pow, pow_mul]

/-- Tile addressing, by signed or unsigned number (rule R462). -/
theorem bgTileAddr_eq (s : State) (id : Byte) :
    bgTileAddr s id = if s.lcdc.getLsbD 4 = true then 16 * id.toNat
      else if id.toNat < 128 then 0x1000 + 16 * id.toNat else 16 * id.toNat := by
  unfold bgTileAddr unsignedTiles
  split
  · rfl
  · rw [BitVec.toInt_eq_toNat_cond]
    have := id.isLt
    split <;> split <;> omega

/-- A monochrome colour, its palette field as a number (rules R39, R600). -/
theorem monoColor_eq (s : State) (ctx : PalCtx) (pal : Byte) (i : BitVec 2) :
    monoColor s ctx pal i = shade (monoTable s ctx) (BitVec.ofNat 2 (pal.toNat / 4 ^ i.toNat % 4)) := by
  rw [monoColor, paletteField_eq]

/-- A mirrored column counted from the other end, as the bit planes are (rules R332, R461). -/
theorem mirrored_bit {px : Nat} (hpx : px < 8) (flip : Bool) :
    7 - (if flip = true then 7 - px else px) = if flip = true then px else 7 - px := by
  split <;> omega

/-- A sprite's tile bank, as one condition (rule R332). -/
theorem spriteBank_eq (color bank : Bool) :
    (if color = true then bankOf bank else 0) = if color = true ∧ bank = true then 1 else 0 := by
  simp only [bankOf, ← ite_and]

/-- A map entry's tile bank is its own in both modes: outside colour mode its attributes are 0 (rule
R313). -/
theorem tileBank_eq (s : State) (high : Bool) (row col : Nat) :
    (if colorMode s = true then bankOf (mapEntry s high row col).bank else 0)
      = bankOf (mapEntry s high row col).bank := by
  split
  next => rfl
  next hmono => simp [mapEntry, hmono, bankOf]

/-! ## The background and window at one column (rules R311 to R320) -/

/-- With the background off in non-colour mode a column is shade 0 without priority (rule R317). -/
theorem layerColumn_off (s : State) (ly x : Nat) (hmono : colorMode s = false) (hoff : bgOn s = false) :
    layerColumn s ly x = ⟨0, false, (monoTable s .bgp).s0⟩ := by
  simp [layerColumn, windowColumn, windowVisible, backgroundColumn, hmono, hoff, shade]

/-- Otherwise it is one tile-map pixel, the window's or the background's (rules R311, R314, R320). -/
theorem layerColumn_on {s : State} (ly x : Nat) (hon : colorMode s = true ∨ bgOn s = true) :
    let inWindow := s.lcdc.getLsbD 5 = true ∧ s.wy.toNat ≤ ly ∧ s.wx.toNat ≤ 166 ∧ s.wx.toNat ≤ x + 7
    layerColumn s ly x =
      drawTilePixel s (if inWindow then s.lcdc.getLsbD 6 else s.lcdc.getLsbD 3)
        (if inWindow then x + 7 - s.wx.toNat else (x + s.scx.toNat) % 256)
        (if inWindow then s.windowLine.toNat else (ly + s.scy.toNat) % 256) := by
  intro inWindow
  have hbg : backgroundColumn s ly x = drawTilePixel s (s.lcdc.getLsbD 3) ((x + s.scx.toNat) % 256)
      ((ly + s.scy.toNat) % 256) := if_neg (by rcases hon with h | h <;> simp [h])
  have hshown : colorMode s = true ∨ s.lcdc.getLsbD 0 = true := hon
  have hwin : (windowVisible s ly && decide (s.wx.toNat ≤ x + 7)) = true ↔ inWindow := by
    simp only [Bool.and_eq_true, windowVisible_iff, decide_eq_true_eq, and_iff_right hshown, and_assoc,
      inWindow]
  rw [layerColumn, windowColumn, hbg]
  by_cases h : inWindow
  · rw [if_pos (hwin.mpr h), if_pos h, if_pos h, if_pos h]
    rfl
  · rw [if_neg (mt hwin.mp h), if_neg h, if_neg h, if_neg h]

end Sys2Proof.Machine

/-! PROOFS. The statements of spec/42_renderer.md. -/

namespace Sys2Proof.Proofs

open Sys2Proof.Machine

/-- Settles O47: both states have one picture, and composition reads nothing else. -/
theorem compositionReadsOnlyThePicture : Obligations.CompositionReadsOnlyThePicture := by
  intro s t ly h
  rw [← composeRow_picture s, ← composeRow_picture t, ← composeLine_windowLine_picture s,
    ← composeLine_windowLine_picture t, h.picture_eq]
  exact ⟨rfl, rfl⟩

/-- Settles O48: the selection is the first ten of an ascending list. -/
theorem firstTenSpritesSelected : Obligations.FirstTenSpritesSelected := by
  intro s ly
  rw [selectedSprites_eq]
  refine ⟨List.length_take_le .., (spritesOnLine_ascending s ly).take, fun k hk => ?_, ?_⟩
  · exact mem_spritesOnLine.mp (List.mem_of_mem_take hk)
  · intro k hlt htop hbottom hout
    exact take_full_below (spritesOnLine_ascending s ly) (mem_spritesOnLine.mpr ⟨hlt, htop, hbottom⟩) hout

/-- Settles O49: the selected sprite that draws and beats the others wins the pass; what a sprite has
there is read from its four bytes. -/
theorem spritePriority : Obligations.SpritePriority := by
  refine fun s ly x bg => ⟨fun hon k hk hdraws hbest => ?_, fun hnone => ?_, fun k => ⟨?_, ?_, ?_⟩⟩
  · have hwin : Wins s ly x bg (selectedSprites s ly) k := fun j hj hdraw hjk =>
      (beats_iff s k j).mpr (hbest j hj hdraw hjk)
    rw [spriteColumn, if_pos hon, foldl_draw_winner hk hdraws hwin rfl]
    rfl
  · rw [spriteColumn]
    split
    next hon => rw [foldl_draw_of_none (hnone.resolve_left (by simp [hon]))]
    next => rfl
  · intro px hpx _ _ bit
    rw [spriteIdx, tilePixel, tilePixelAt, planePixel_toNat, spriteBank_eq, mirrored_bit hpx]
    rfl
  · simp only [occludes, Bool.and_eq_true, Bool.or_eq_true, bne_iff_ne, and_assoc]
    rfl
  · intro i
    simp only [spriteColor, monoColor_eq]
    rfl

/-- Settles O50: the window's pixel or the background's, both drawn from a tile map. -/
theorem backgroundAndWindowPixel : Obligations.BackgroundAndWindowPixel := by
  intro s ly x L
  have hcolumn : (composeRow s ly)[x] = spriteColumn s ly x.val (selectedSprites s ly) L :=
    Vector.getElem_ofFn ..
  refine ⟨hcolumn, fun hoff => ?_, layerColumn_off s ly x.val, fun hon => ?_⟩
  · rw [hcolumn, spriteColumn, hoff]
    rfl
  · intro inWindow px py high entry id attr r c bank tile lo hi i
    have hlayer : L = drawTilePixel s high px py := layerColumn_on ly x.val hon
    have hidx : L.idx.toNat = i := by
      rw [hlayer, drawTilePixel, tilePixelAt, planePixel_toNat, bgTileAddr_eq, tileBank_eq]
      rfl
    refine ⟨hidx, congrArg Layer.prio hlayer, ?_⟩
    rw [← hidx, BitVec.ofNat_toNat, BitVec.setWidth_eq, ← monoColor_eq, hlayer]
    rfl

/-- Settles O14: each register is a field of its own. -/
theorem scrollRegisters : Obligations.ScrollRegisters := fun _ _ =>
  ⟨rfl, rfl, rfl, rfl, rfl, rfl, rfl, rfl⟩

/-- Settles O51: one row of the buffer is set, and the counter moves with R320's condition. -/
theorem compositionWritesOneRow : Obligations.CompositionWritesOneRow := by
  refine fun s ly hly => ⟨_, rfl, rfl, fun y => ?_, ?_⟩
  · simp only [composeLine, dif_pos hly, Fin.getElem_fin, Vector.getElem_set, eq_comm (a := ly)]
  · simp only [composeLine, windowVisible_iff]

end Sys2Proof.Proofs

/-! PROOFS. The statements of spec/43_oam_store.md. -/

namespace Sys2Proof.Proofs

open Sys2Proof.Machine

/-- Settles O15: each read answers one byte; the bank in use is R14's choice. -/
theorem storeReads : Obligations.StoreReads := fun _ _ _ => ⟨rfl, rfl⟩

/-- Settles O16: under the lock the write is dropped; otherwise it is the write of its byte. -/
theorem oamWriteStores : Obligations.OamWriteStores := by
  refine fun s off v hwf => ⟨fun hlocked => ?_, fun hopen => ?_⟩
  · exact congrArg Host.Outcome.next (if_pos hlocked)
  · refine ⟨oamSet off v s, exec_wrOam_open off v hopen, rfl, ?_, fun x hx => ?_⟩
    · rw [oamAt_oamSet hwf, if_pos rfl]
    · rw [oamAt_oamSet hwf, if_neg hx]

end Sys2Proof.Proofs

/-! PROOFS. VRAM by byte: WR.VRAM outside the lock, a tile's pixel as one bit of a plane byte, and the
bytes a running block copy has moved (rules R451, R461, R513). -/

namespace Sys2Proof.Machine

/-! ## WR.VRAM (rule R451) -/

/-- WR.VRAM outside the write lock. -/
theorem exec_wrVram_open (off : VOff) (v : Byte) {s : State} (h : s.locks.vramW = false) :
    exec (.wrVram off v) s = .next (vramSet (bankInUse s) off v s) := by
  simp only [exec, execWrVram, h]
  rfl

/-- VRAM after a byte's write, by offsets below the bank's size. -/
theorem vramAt_vramSet_ofNat {s : State} (h : Memory.wf 0x4000 s.vram = true) (b b' : Fin 2) (v : Byte)
    {a x : Nat} (ha : a < 0x2000) (hx : x < 0x2000) :
    vramAt (vramSet b (BitVec.ofNat 13 a) v s) b' x = if b = b' ∧ a = x then v else vramAt s b' x := by
  have hval : ∀ {n : Nat}, n < 0x2000 → (BitVec.ofNat 13 n).toNat = n := Nat.mod_eq_of_lt
  have hset := vramAt_vramSet h b b' (BitVec.ofNat 13 a) (BitVec.ofNat 13 x) v
  have hoff : BitVec.ofNat 13 a = BitVec.ofNat 13 x ↔ a = x := by rw [BitVec.toNat_eq, hval ha, hval hx]
  simpa only [hoff, hval hx] using hset

/-! ## A tile's pixels (rules R453, R460, R461) -/

/-- The two bits of a pixel by number. -/
theorem appendBits_getLsbD : ∀ hi lo high : Bool,
    (BitVec.ofBool hi ++ BitVec.ofBool lo).getLsbD high.toNat = if high = true then hi else lo := by
  decide

/-- Bit 0 of a pixel comes from the row's low plane, bit 1 from its high plane. -/
theorem tilePixel_getLsbD (s : State) (b : Fin 2) (n r c : Nat) (high : Bool) :
    (tilePixel s b n r c).getLsbD high.toNat
      = (vramAt s b (16 * n + 2 * r + high.toNat)).getLsbD (7 - c) := by
  rw [tilePixel, tilePixelAt, planePixel, appendBits_getLsbD]
  cases high <;> rfl

/-- A pixel is a bit of each of its row's two planes. -/
theorem tilePixel_congr {s t : State} {b : Fin 2} {n r : Nat} (c : Nat)
    (h : ∀ high : Bool, vramAt t b (16 * n + 2 * r + high.toNat) = vramAt s b (16 * n + 2 * r + high.toNat)) :
    tilePixel t b n r c = tilePixel s b n r c :=
  congrArg₂ (planePixel · · c) (h false) (h true)

/-- A tile's bytes after a write to one of its planes: that byte changes and no other. -/
theorem vramAt_vramSet_tileByte {s : State} (hwf : Memory.wf 0x4000 s.vram = true) (b : Fin 2) (n : Fin 384)
    (r r' : Fin 8) (p p' : Bool) (v : Byte) :
    vramAt (vramSet b (BitVec.ofNat 13 (16 * n.val + 2 * r.val + p.toNat)) v s) b
        (16 * n.val + 2 * r'.val + p'.toNat)
      = if r = r' ∧ p = p' then v else vramAt s b (16 * n.val + 2 * r'.val + p'.toNat) := by
  have hbit : p.toNat = p'.toNat ↔ p = p' := (Function.LeftInverse.injective Bool.ofNat_toNat).eq_iff
  have hp := p.toNat_le
  have hp' := p'.toNat_le
  have hsame : 16 * n.val + 2 * r.val + p.toNat = 16 * n.val + 2 * r'.val + p'.toNat ↔ r = r' ∧ p = p' := by
    rw [Fin.ext_iff, ← hbit]
    omega
  rw [vramAt_vramSet_ofNat hwf b b v (by omega) (by omega)]
  simp only [hsame, true_and]

/-! ## The bytes of a block (rules R466, R511, R513) -/

/-- The destination offset of byte `i` of a block, as a number (assumption 18). -/
theorem hdmaOffset_eq {s : State} (hlow : 0x8000 ≤ s.hdma.dst.toNat) (i : Nat) :
    hdmaOffset s i = BitVec.ofNat 13 (s.hdma.dst.toNat - 0x8000 + i) := by
  apply BitVec.eq_of_toNat_eq
  simp only [hdmaOffset, BitVec.toNat_setWidth, BitVec.toNat_add, BitVec.toNat_sub, BitVec.toNat_ofNat]
  omega

/-- The VRAM offset of a source byte is, modulo 16, its number in the block. -/
theorem sourceOffset_mod {a : Addr} (h : SrcLegal a) {i : Nat} (hi : i < 16) :
    ((a + BitVec.ofNat 16 i).extractLsb' 0 13).toNat % 16 = i := by
  have hsrc : a.toNat % 16 = 0 := h
  simp only [BitVec.extractLsb'_toNat, BitVec.toNat_add, BitVec.toNat_ofNat, Nat.shiftRight_zero]
  omega

/-- A read of the Bus sees VRAM at most at the offset of its address. -/
theorem busRead_congr {s t : State} {a : Addr} (hbus : busOutside t a = busOutside s a)
    (hvram : vramAt t (bankInUse t) (a.extractLsb' 0 13).toNat
      = vramAt s (bankInUse s) (a.extractLsb' 0 13).toNat) :
    busRead t a = busRead s a := by
  rw [busRead, busRead, hbus, hvram]

/-- VRAM after one byte's copy. -/
theorem vramAt_copyByte {s : State} (hwf : Memory.wf 0x4000 s.vram = true) (hdst : DstLegal s.hdma.dst)
    {i : Nat} (hi : i < 16) (b : Fin 2) {x : Nat} (hx : x < 0x2000) :
    vramAt (copyByte s i) b x
      = if bankInUse s = b ∧ s.hdma.dst.toNat - 0x8000 + i = x
        then busRead s (s.hdma.src + BitVec.ofNat 16 i) else vramAt s b x := by
  obtain ⟨hlow, hhigh, -⟩ := hdst
  rw [← vramAt_vramSet_ofNat hwf _ b _ (by omega) hx, ← hdmaOffset_eq hlow]
  rfl

/-- Offset `x` of bank `b` is one of the first `n` bytes of the destination block. -/
def InBlock (s : State) (n : Nat) (b : Fin 2) (x : Nat) : Prop :=
  b = bankInUse s ∧ s.hdma.dst.toNat - 0x8000 ≤ x ∧ x < s.hdma.dst.toNat - 0x8000 + n

/-- The first `n` bytes of a block hold their source bytes, every other byte is as before. -/
def BytesCopied (s t : State) (n : Nat) : Prop :=
  ∀ (b : Fin 2) (x : Nat), x < 0x2000 →
    (InBlock s n b x → vramAt t b x = blockSourceByte s (x - (s.hdma.dst.toNat - 0x8000)))
    ∧ (¬ InBlock s n b x → vramAt t b x = vramAt s b x)

/-- The next source byte is still what it was when the copy began: source and destination both start on a
block boundary, so it is none of the bytes already written. -/
theorem busRead_copyBytes {s : State} (h : AddressesLegal s.hdma) {n : Nat} (hn : n < 16)
    (hcopied : BytesCopied s ((List.range n).foldl copyByte s) n) :
    busRead ((List.range n).foldl copyByte s) (s.hdma.src + BitVec.ofNat 16 n) = blockSourceByte s n := by
  obtain ⟨⟨hlow, -, hmod⟩, hsrc⟩ := h
  have hframe := copyBytes_eq (List.range n) s
  rw [List.length_range] at hframe
  refine busRead_congr (by rw [hframe]; rfl) ?_
  have hbank : bankInUse ((List.range n).foldl copyByte s) = bankInUse s := by rw [hframe]; rfl
  have hoff := sourceOffset_mod hsrc hn
  rw [hbank]
  refine (hcopied _ _ (BitVec.isLt _)).2 fun ⟨_, hge, hlt⟩ => ?_
  omega

/-- The copy of a block's first `n` bytes, by induction on `n`: each copy adds one offset. -/
theorem bytesCopied_range {s : State} (hwf : Memory.wf 0x4000 s.vram = true) (h : AddressesLegal s.hdma)
    {n : Nat} (hn : n ≤ 16) : BytesCopied s ((List.range n).foldl copyByte s) n := by
  induction n with
  | zero => exact fun b x _ => ⟨fun ⟨_, hge, hlt⟩ => absurd hlt (by omega), fun _ => rfl⟩
  | succ n ih =>
    have hcopied := ih (by omega)
    have hsource := busRead_copyBytes h (by omega) hcopied
    have hframe := copyBytes_eq (List.range n) s
    have hwf' := copyBytes_wf (List.range n) hwf
    rw [List.range_succ, List.foldl_append, List.foldl_cons, List.foldl_nil]
    generalize (List.range n).foldl copyByte s = t at hcopied hsource hframe hwf' ⊢
    have hhdma : t.hdma = s.hdma := by rw [hframe]
    have hbank : bankInUse t = bankInUse s := by rw [hframe]; rfl
    intro b x hx
    obtain ⟨hin, hout⟩ := hcopied b x hx
    rw [vramAt_copyByte hwf' (hhdma ▸ h.1) (by omega) b hx, hhdma, hbank, hsource]
    split
    next hlast =>
      obtain ⟨rfl, rfl⟩ := hlast
      exact ⟨fun _ => by rw [Nat.add_sub_cancel_left], fun hno => absurd ⟨rfl, by omega, by omega⟩ hno⟩
    next hnot =>
      refine ⟨fun ⟨hb, hge, hlt⟩ => hin ⟨hb, hge, ?_⟩, fun hno => hout fun ⟨hb, hge, hlt⟩ => ?_⟩
      · have : s.hdma.dst.toNat - 0x8000 + n ≠ x := fun heq => hnot ⟨hb.symm, heq⟩
        omega
      · exact hno ⟨hb, hge, by omega⟩

/-- VRAM after a block. -/
theorem bytesCopied_copyBlock {s : State} (hwf : Memory.wf 0x4000 s.vram = true) (h : AddressesLegal s.hdma) :
    BytesCopied s (copyBlock s) 16 := bytesCopied_range hwf h (Nat.le_refl 16)

/-- The destination after a block, as a number. -/
theorem hdmaDstNext_eq (d : Addr) :
    hdmaDstNext d = BitVec.ofNat 16 (if d.toNat = 0x9FF0 then 0x8000 else d.toNat + 16) := by
  have hend : d = 0x9FF0#16 ↔ d.toNat = 0x9FF0 := BitVec.toNat_eq
  simp only [hdmaDstNext, hend]
  split
  · rfl
  · exact BitVec.eq_of_toNat_eq (by simp)

/-- The source after a block, as a number. -/
theorem hdmaSrcNext_eq (a : Addr) : a + 16#16 = BitVec.ofNat 16 ((a.toNat + 16) % 65536) :=
  BitVec.eq_of_toNat_eq (by simp)

end Sys2Proof.Machine

/-! PROOFS. The statements of spec/44_tile_store.md. -/

namespace Sys2Proof.Proofs

open Sys2Proof.Machine

/-- Settles O21: a pixel is one bit of each plane of its row, and the write changes one of the planes. -/
theorem tileFollowsVramWrite : Obligations.TileFollowsVramWrite := by
  intro s n r c high v t hwf hopen h b
  rw [exec_wrVram_open _ v hopen] at h
  cases h
  have hother : 1 - high.toNat = (!high).toNat := by cases high <;> rfl
  refine ⟨?_, ?_, fun r' hr => tilePixel_congr c fun p => ?_⟩
  · rw [tilePixel_getLsbD, vramAt_vramSet_tileByte hwf, if_pos ⟨rfl, rfl⟩]
  · rw [hother, tilePixel_getLsbD, tilePixel_getLsbD, vramAt_vramSet_tileByte hwf, if_neg (by simp)]
  · rw [vramAt_vramSet_tileByte hwf, if_neg fun hsame => hr hsame.1.symm]

/-- Settles O37: the bytes by induction on how many are copied; a source byte is read before the copy can
reach it. -/
theorem blockCopiesSixteenBytes : Obligations.BlockCopiesSixteenBytes := by
  intro s hwf hlegal
  obtain ⟨-, haddr⟩ := (hdmaLegal_iff s.hdma).mp hlegal
  have ⟨⟨_, hhigh, _⟩, _⟩ := haddr
  have hcopied := bytesCopied_copyBlock hwf haddr
  refine ⟨?_, fun i => ?_, fun b x => (hcopied b x.toNat x.isLt).2⟩
  · rw [← hdmaSrcNext_eq, ← hdmaDstNext_eq]
    exact copyBlock_eq s
  · rw [(hcopied (bankInUse s) _ (by omega)).1 ⟨rfl, by omega, by omega⟩, Nat.add_sub_cancel_left]

/-- Settles O17: under the lock the write is dropped; otherwise it is the write of its byte. -/
theorem vramWriteStores : Obligations.VramWriteStores := by
  refine fun s off v hwf => ⟨fun hlocked => ?_, fun hopen => ?_⟩
  · exact congrArg Host.Outcome.next (if_pos hlocked)
  · refine ⟨vramSet (bankInUse s) off v s, exec_wrVram_open off v hopen, rfl, ?_, fun b x hx => ?_⟩
    · exact (vramAt_vramSet hwf _ _ off off v).trans (if_pos ⟨rfl, rfl⟩)
    · rw [vramAt_vramSet hwf, if_neg fun ⟨hb, hoff⟩ => hx ⟨hb.symm, hoff.symm⟩]

end Sys2Proof.Proofs

/-! PROOFS. HDMA5: the byte it reads, as a number, and the writes to it that copy nothing (rules R500, R505,
R510, R517). -/

namespace Sys2Proof.Machine

/-! ## The read -/

/-- A flag above a seven-bit count. -/
theorem toNat_flag_append (flag : Bool) (x : BitVec 7) :
    (BitVec.ofBool flag ++ x).toNat = (if flag = true then 128 else 0) + x.toNat := by
  rw [BitVec.toNat_append]
  cases flag
  · exact (Nat.zero_or _).trans (Nat.zero_add _).symm
  · exact (Nat.two_pow_add_eq_or_of_lt x.isLt 1).symm

/-- HDMA5 as it reads, as a number (rule R510). -/
theorem toNat_hdma5Read {s : State} (hrem : s.hdma.rem ≤ 128) :
    (hdma5Read s).toNat = if s.cfg.colorHw = false ∨ s.hdma.complete = true then 0xFF
      else (if s.hdma.paused = true then 128 else 0) + (s.hdma.rem - 1) := by
  have hcount : (BitVec.ofNat 7 (s.hdma.rem - 1)).toNat = s.hdma.rem - 1 :=
    Nat.mod_eq_of_lt (by omega)
  unfold hdma5Read
  cases s.cfg.colorHw <;> cases s.hdma.complete
  case true.false => exact (toNat_flag_append _ _).trans (congrArg _ hcount)
  all_goals rfl

/-- With the running engine `h` paused, the byte read asks for a start of the length that remains (rule
R517). -/
theorem hdma5Read_paused {s : State} {h : Hdma} (hengine : s.hdma = { h with paused := true })
    (hw : s.cfg.colorHw = true) (hcomplete : h.complete = false) (hlow : 1 ≤ h.rem) (hhigh : h.rem ≤ 128) :
    (hdma5Read s).getLsbD 7 = true ∧ hdmaBlocks (hdma5Read s) = h.rem := by
  have hread : (hdma5Read s).toNat = 128 + (h.rem - 1) := by
    rw [toNat_hdma5Read (by rw [hengine]; exact hhigh), hw, hengine, hcomplete]
    rfl
  constructor
  · rw [← BitVec.msb_eq_getLsbD_last, BitVec.msb_eq_decide, hread]
    exact decide_eq_true (Nat.le_add_right _ _)
  · rw [hdmaBlocks_eq, hread]
    omega

/-! ## The writes that copy nothing -/

/-- Bit 7 set with the LCD on, outside horizontal blank (rule R505). -/
theorem hdma5Write_arm {v : Byte} {s : State} (hw : s.cfg.colorHw = true) (hv : v.getLsbD 7 = true)
    (hlcd : lcdOn s = true) (hphase : s.phase ≠ .hblank) (hglitch : s.phase ≠ .glitchHblank) :
    hdma5Write v s = hdmaArm (hdmaBlocks v) s := by
  have himm : ¬hdmaImmediate (hdmaArm (hdmaBlocks v) s) = true := by
    show ¬(!lcdOn s || s.phase == .hblank || s.phase == .glitchHblank) = true
    simp [hlcd, hphase, hglitch]
  rw [hdma5Write, if_pos hw, hdmaMode, if_pos hv]
  exact if_neg himm

/-- The state after the pause of a transfer in progress. -/
def pauseHdma (s : State) : State := { s with hdma := { s.hdma with paused := true } }

/-- Bit 7 clear with a transfer in progress (rule R505). -/
theorem hdma5Write_pause {v : Byte} {s : State} (hw : s.cfg.colorHw = true) (hv : v.getLsbD 7 = false)
    (hactive : s.hdma.active = true) (hpaused : s.hdma.paused = false) :
    hdma5Write v s = pauseHdma s := by
  rw [hdma5Write, if_pos hw, hdmaMode, hv, if_neg nofun, hdmaPauseOrGdma, hactive, hpaused]
  rfl

/-- With the LCD on, outside horizontal blank, and the running engine `h` paused, the byte read, written
back, brings back `h` (rules R505, R517). -/
theorem hdma5Write_resume {s : State} {h : Hdma} (hengine : s.hdma = { h with paused := true })
    (hlegal : HdmaLegal h) (hactive : h.active = true) (hpaused : h.paused = false)
    (hw : s.cfg.colorHw = true) (hlcd : lcdOn s = true) (hphase : s.phase ≠ .hblank)
    (hglitch : s.phase ≠ .glitchHblank) :
    hdma5Write (hdma5Read s) s = { s with hdma := h } := by
  obtain ⟨⟨hrun, hhigh, -⟩, -⟩ := (hdmaLegal_iff h).mp hlegal
  obtain ⟨hcomplete, hlow⟩ := hrun hactive
  have hrunning : { h with active := true, paused := false, complete := false } = h := by
    cases h
    simp_all
  obtain ⟨hmode, hblocks⟩ := hdma5Read_paused hengine hw hcomplete hlow hhigh
  rw [hdma5Write_arm hw hmode hlcd hphase hglitch, hdmaArm, hblocks, hengine]
  simp only [hrunning]

/-- A write that copies nothing asks for no time (rule R520). -/
theorem exec_wrHdma5_uncharged {v : Byte} {s t : State} (hwrite : hdma5Write v s = t) (ht : t.charge = 0) :
    exec (.wrHdma5 v) s = .next t := by
  rw [exec, execWrHdma5, hwrite, settle_zero ht]

end Sys2Proof.Machine

/-! PROOFS. The statements of spec/45_hdma.md. -/

namespace Sys2Proof.Proofs

open Sys2Proof.Machine

/-- Settles O42: the pause keeps the count, and the byte read brings back the engine as it was before. -/
theorem pauseAndResumeKeepCount : Obligations.PauseAndResumeKeepCount := by
  intro s v hc hw hlegal hactive hpaused hlcd hphase hglitch hv
  have hpause : exec (.wrHdma5 v) s = .next (pauseHdma s) :=
    exec_wrHdma5_uncharged (hdma5Write_pause hw hv hactive hpaused) hc
  have hresume : hdma5Write (hdma5Read (pauseHdma s)) (respond (hdma5Read (pauseHdma s)) (pauseHdma s))
      = { respond (hdma5Read (pauseHdma s)) (pauseHdma s) with hdma := s.hdma } :=
    hdma5Write_resume rfl hlegal hactive hpaused hw hlcd hphase hglitch
  refine ⟨respond (hdma5Read (pauseHdma s)) (pauseHdma s), hdma5Read (pauseHdma s), ?_, rfl, rfl,
    exec_wrHdma5_uncharged hresume hc⟩
  rw [execAll, hpause]
  rfl

/-- Settles O36: the four address registers are write-only, and HDMA5's byte is read as a number. -/
theorem hdmaReads : Obligations.HdmaReads := by
  intro s hlegal
  obtain ⟨⟨-, hrem, -⟩, -⟩ := (hdmaLegal_iff _).mp hlegal
  exact ⟨rfl, rfl, rfl, rfl, hdma5Read s, rfl, toNat_hdma5Read hrem⟩

/-- Settles O38: the three writes that copy nothing, none of which takes time. -/
theorem hdmaStartAndPause : Obligations.HdmaStartAndPause := by
  refine fun s v hc => ⟨fun hw => ?_, fun hw hv hlcd hphase hglitch => ?_, fun hw hv hactive hpaused => ?_⟩
  · exact exec_wrHdma5_uncharged (hdma5Write_absent v hw) hc
  · rw [exec_wrHdma5_uncharged (hdma5Write_arm hw hv hlcd hphase hglitch) hc, hdmaArm, hdmaBlocks_eq]
  · exact exec_wrHdma5_uncharged (hdma5Write_pause hw hv hactive hpaused) hc

end Sys2Proof.Proofs

/-! PROOFS. A run of writes to a colour data register with its auto-increment (rule R621), for both colour
RAMs at once; and when a write to a monochrome palette captures (rule R616). -/

namespace Sys2Proof.Machine

/-! ## A run of writes through the index (rule R621) -/

theorem paletteIndexNext_mod (ps : Byte) : (paletteIndexNext ps).toNat % 64 = (ps.toNat % 64 + 1) % 64 := by
  rw [paletteIndexNext_eq, BitVec.toNat_ofNat]
  omega

/-- After `n` data writes the index has moved by `n`, modulo 64. -/
theorem paletteIndexNext_iterate_mod (ps : Byte) (n : Nat) :
    (paletteIndexNext^[n] ps).toNat % 64 = (ps.toNat % 64 + n) % 64 := by
  induction n with
  | zero => simp
  | succ n ih =>
    rw [Function.iterate_succ_apply', paletteIndexNext_mod, ih]
    omega

/-- A colour RAM after data writes of `bs` from index register `ps` on. -/
def fillCram (m : Cram) (ps : Byte) : List Byte → Cram
  | [] => m
  | v :: bs => fillCram (m.setIfInBounds (ps.toNat % 64) v) (paletteIndexNext ps) bs

/-- A run leaves the bytes it does not come by. -/
theorem fillCram_other (m : Cram) (ps : Byte) (bs : List Byte) {k : Nat} (hk : k < 64)
    (hout : ∀ j, j < bs.length → k ≠ (ps.toNat % 64 + j) % 64) : (fillCram m ps bs)[k] = m[k] := by
  induction bs generalizing m ps with
  | nil => rfl
  | cons v bs ih =>
    have hne : ps.toNat % 64 ≠ k := fun h => hout 0 (Nat.succ_pos _) (by omega)
    rw [fillCram, ih, Vector.getElem_setIfInBounds_ne hk hne]
    intro j hj
    have hnext := hout (j + 1) (Nat.succ_lt_succ hj)
    rw [paletteIndexNext_mod]
    omega

/-- Within a full turn no byte of a run is written over by a later one. -/
theorem fillCram_written (m : Cram) (ps : Byte) {bs : List Byte} (hlen : bs.length ≤ 64) {j : Nat}
    (hj : j < bs.length) :
    (fillCram m ps bs)[(ps.toNat % 64 + j) % 64]'(Nat.mod_lt _ (by decide)) = bs[j] := by
  induction bs generalizing m ps j with
  | nil => exact absurd hj (Nat.not_lt_zero j)
  | cons v bs ih =>
    simp only [List.length_cons] at hlen hj
    cases j with
    | zero =>
      simp only [fillCram, Nat.add_zero, Nat.mod_mod, List.getElem_cons_zero]
      rw [fillCram_other _ _ _ (Nat.mod_lt _ (by decide)), Vector.getElem_setIfInBounds_self]
      intro j hj
      rw [paletteIndexNext_mod]
      omega
    | succ j =>
      have hshift : (ps.toNat % 64 + (j + 1)) % 64 = ((paletteIndexNext ps).toNat % 64 + j) % 64 := by
        rw [paletteIndexNext_mod]
        omega
      simp only [fillCram, hshift, List.getElem_cons_succ]
      exact ih _ _ (by omega) (by omega)

/-! ## The two colour RAMs behind their registers (rules R42, R43) -/

/-- Background and object colour RAM, each with an index and a data register of its own. -/
inductive ColourPort where
  | bg
  | obj

namespace ColourPort

variable (p : ColourPort)

def cram (s : State) : Cram :=
  match p with
  | .bg => s.bgCram
  | .obj => s.objCram

def index (s : State) : Byte :=
  match p with
  | .bg => s.bcps
  | .obj => s.ocps

/-- The state with another colour RAM and index register. -/
def store (m : Cram) (ps : Byte) (s : State) : State :=
  match p with
  | .bg => { s with bgCram := m, bcps := ps }
  | .obj => { s with objCram := m, ocps := ps }

def wrIndex (v : Byte) : Instr :=
  match p with
  | .bg => .wrBcps v
  | .obj => .wrOcps v

def wrData (v : Byte) : Instr :=
  match p with
  | .bg => .wrBcpd v
  | .obj => .wrOcpd v

def rdData : Instr :=
  match p with
  | .bg => .rdBcpd
  | .obj => .rdOcpd

@[simp] theorem cram_store (m : Cram) (ps : Byte) (s : State) : p.cram (p.store m ps s) = m := by
  cases p <;> rfl

@[simp] theorem index_store (m : Cram) (ps : Byte) (s : State) : p.index (p.store m ps s) = ps := by
  cases p <;> rfl

@[simp] theorem store_store (m m' : Cram) (ps ps' : Byte) (s : State) :
    p.store m' ps' (p.store m ps s) = p.store m' ps' s := by
  cases p <;> rfl

@[simp] theorem store_cram_index (s : State) : p.store (p.cram s) (p.index s) s = s := by
  cases p <;> rfl

@[simp] theorem cfg_store (m : Cram) (ps : Byte) (s : State) : (p.store m ps s).cfg = s.cfg := by
  cases p <;> rfl

@[simp] theorem mode_store (m : Cram) (ps : Byte) (s : State) : (p.store m ps s).mode = s.mode := by
  cases p <;> rfl

@[simp] theorem cram_respond (v : Byte) (s : State) : p.cram (respond v s) = p.cram s := by
  cases p <;> rfl

@[simp] theorem index_respond (v : Byte) (s : State) : p.index (respond v s) = p.index s := by
  cases p <;> rfl

variable {s : State}

/-- WR.BCPS and WR.OCPS on colour hardware (rules R622, R624). -/
theorem exec_wrIndex (v : Byte) (hw : s.cfg.colorHw = true) :
    exec (p.wrIndex v) s = .next (p.store (p.cram s) (v &&& 0xBF#8) s) := by
  obtain ⟨hbcps, -, hocps, -⟩ := Proofs.colourPaletteRegisters s v hw
  cases p
  · exact hbcps
  · exact hocps

/-- WR.BCPD and WR.OCPD on colour hardware (rules R626, R628). -/
theorem exec_wrData (v : Byte) (hw : s.cfg.colorHw = true) :
    exec (p.wrData v) s = .next (p.store ((p.cram s).setIfInBounds ((p.index s).toNat % 64) v)
      (paletteIndexNext (p.index s)) s) := by
  obtain ⟨-, -, -, -, hbcpd, -, hocpd, -⟩ := Proofs.colourPaletteRegisters s v hw
  rw [paletteIndexNext_eq]
  cases p
  · exact hbcpd
  · exact hocpd

/-- RD.BCPD and RD.OCPD on colour hardware outside mode 3 (rules R627, R629). -/
theorem exec_rdData (hw : s.cfg.colorHw = true) (hm : s.mode ≠ .transfer) :
    exec p.rdData s
      = .next (respond ((p.cram s)[(p.index s).toNat % 64]'(Nat.mod_lt _ (by decide))) s) := by
  obtain ⟨-, -, -, -, -, hbcpd, -, hocpd⟩ := Proofs.colourPaletteRegisters s 0 hw
  simp only [if_neg hm] at hbcpd hocpd
  cases p
  · exact hbcpd
  · exact hocpd

/-- A run of data writes fills the colour RAM and moves the index, and does nothing else (rule R621). -/
theorem execAll_wrData (bs : List Byte) (hw : s.cfg.colorHw = true) :
    execAll (bs.map p.wrData) s
      = .next (p.store (fillCram (p.cram s) (p.index s) bs) (paletteIndexNext^[bs.length] (p.index s)) s) := by
  induction bs generalizing s with
  | nil => simp [execAll, fillCram]
  | cons v bs ih =>
    simp only [List.map_cons, execAll, p.exec_wrData v hw]
    rw [ih (by simpa using hw)]
    simp [fillCram]

/-- An index below 64 is stored as it is: it has no bit 6. -/
theorem ofNat_and_indexMask : ∀ k < 64, BitVec.ofNat 8 k &&& 0xBF#8 = BitVec.ofNat 8 k := by decide

/-- Setting the index and reading the data register outside mode 3 gives the byte at that index. -/
theorem execAll_wrIndex_rdData {k : Nat} (hk : k < 64) (hw : s.cfg.colorHw = true)
    (hm : s.mode ≠ .transfer) :
    execAll [p.wrIndex (BitVec.ofNat 8 k), p.rdData] s
      = .next (respond ((p.cram s)[k]) (p.store (p.cram s) (BitVec.ofNat 8 k) s)) := by
  have hindex : (BitVec.ofNat 8 k).toNat % 64 = k := by
    rw [BitVec.toNat_ofNat]
    omega
  simp only [execAll, p.exec_wrIndex _ hw, ofNat_and_indexMask k hk]
  rw [p.exec_rdData (by simpa using hw) (by simpa using hm)]
  simp only [cram_store, index_store, hindex]

/-- What R621 says of one colour RAM: `bs`, written from the index of `s` on, is stored there, moves the
index, leaves the rest, and is read back. -/
def AutoIncrements (s : State) (bs : List Byte) : Prop :=
  let start := (p.index s).toNat % 64
  ∃ t, execAll (bs.map p.wrData) s = .next t
    ∧ t = p.store (p.cram t) (p.index t) s
    ∧ (p.index t).toNat % 64 = (start + bs.length) % 64
    ∧ (∀ j (h : j < bs.length), ∃ u,
        execAll [p.wrIndex (BitVec.ofNat 8 ((start + j) % 64)), p.rdData] t = .next u
        ∧ u.result = some bs[j] ∧ p.cram u = p.cram t
        ∧ p.index u = BitVec.ofNat 8 ((start + j) % 64))
    ∧ ∀ k (h : k < 64), (∀ j, j < bs.length → k ≠ (start + j) % 64) → (p.cram t)[k] = (p.cram s)[k]

theorem autoIncrements {bs : List Byte} (hw : s.cfg.colorHw = true) (hlen : bs.length ≤ 64)
    (hm : s.mode ≠ .transfer) : p.AutoIncrements s bs := by
  refine ⟨_, p.execAll_wrData bs hw, by simp, ?index, fun j hj => ?readBack, fun k hk hout => ?frame⟩
  case index => rw [index_store, paletteIndexNext_iterate_mod]
  case readBack =>
    refine ⟨_, p.execAll_wrIndex_rdData (Nat.mod_lt _ (by decide)) (by simpa using hw)
      (by simpa using hm), ?_, by simp, by simp⟩
    simp only [cram_store, fillCram_written _ _ hlen hj]
    rfl
  case frame =>
    simp only [cram_store]
    exact fillCram_other _ _ _ hk hout

end ColourPort

/-! ## The capture (rule R616) -/

theorem captures_iff (ctx : PalCtx) (v : Byte) (s : State) : captures ctx v s = true ↔
    s.cfg.colorHw = true ∧ s.cfg.colorCart = false ∧ colzOf s.colz ctx = none ∧ v ≠ 0 := by
  simp only [captures, colorMode, Bool.and_eq_true, Bool.not_eq_true', Option.isNone_iff_eq_none, bne_iff_ne]
  cases s.cfg.colorHw <;> simp [and_assoc]

end Sys2Proof.Machine

/-! PROOFS. The statements of spec/46_palette.md. -/

namespace Sys2Proof.Proofs

open Sys2Proof.Machine

/-- Settles O46: R621 holds of either colour RAM. -/
theorem paletteAutoIncrement : Obligations.PaletteAutoIncrement := fun _ _ hw hlen hm =>
  ⟨ColourPort.bg.autoIncrements hw hlen hm, ColourPort.obj.autoIncrements hw hlen hm⟩

/-- Settles O43: by whether the write captures. -/
theorem monochromePalettes : Obligations.MonochromePalettes := by
  intro s v now
  have hcap : ∀ ctx cram p, now (colzOf s.colz ctx) cram p = if captures ctx v s = true then
      some ⟨cramColor s cram p 0, cramColor s cram p 1, cramColor s cram p 2, cramColor s cram p 3⟩
      else colzOf s.colz ctx :=
    fun ctx cram p => if_congr (captures_iff ctx v s).symm rfl rfl
  refine ⟨?bgp, ?obp0, ?obp1, rfl, rfl, rfl⟩
  case bgp =>
    rw [exec, execWrBgp, capture, show now s.colz.bgp _ _ = _ from hcap .bgp _ _]
    split <;> rfl
  case obp0 =>
    rw [exec, execWrObp0, capture, show now s.colz.obp0 _ _ = _ from hcap .obp0 _ _]
    split <;> rfl
  case obp1 =>
    rw [exec, execWrObp1, capture, show now s.colz.obp1 _ _ = _ from hcap .obp1 _ _]
    split <;> rfl

/-- Settles O45: every register asks for colour hardware first. -/
theorem colourPaletteRegistersAbsent : Obligations.ColourPaletteRegistersAbsent := by
  intro s v hw
  simp only [List.forall_mem_cons, List.not_mem_nil, false_implies, implies_true, and_true]
  refine ⟨⟨?_, ?_, ?_, ?_⟩, ?_, ?_, ?_, ?_⟩
  · simp [exec, execWrBcps, hw]
  · simp [exec, execWrBcpd, hw]
  · simp [exec, execWrOcps, hw]
  · simp [exec, execWrOcpd, hw]
  · simp [exec, execRdBcps, respond, hw]
  · simp [exec, execRdBcpd, respond, hw]
  · simp [exec, execRdOcps, respond, hw]
  · simp [exec, execRdOcpd, respond, hw]

end Sys2Proof.Proofs

/-! PROOFS. The power-on state, of any configuration: what its stores and frame buffer read, the facts every
step keeps, and RESET as that state with what stands outside the block (rules R800, R801). -/

namespace Sys2Proof.Machine

/-- An empty store reads 0 everywhere (rules R57, R59). -/
@[simp] theorem Memory.read_nil (a : Nat) : Memory.read [] a = 0 := rfl

theorem powerOn_fb (cfg : Config) (y : Fin 144) (x : Fin 160) : (State.powerOn cfg).fb[y][x] = cfg.blank := by
  simp [State.powerOn]

/-- RESET puts out the release of the locks alone. -/
theorem execReset_eq (s : State) : execReset s = .next { State.powerOn s.cfg with
    now := s.now
    vramBank := s.vramBank
    doubleSpeed := s.doubleSpeed
    bus := s.bus
    inputs := s.inputs
    outputs := s.outputs ++ lockChange Locks.open s
    result := s.result
    busCount := s.busCount
    charge := s.charge } := by
  rw [execReset, lockSet_eq]

/-! ## What every step keeps holds at power-on -/

theorem powerOn_timeline (cfg : Config) : Timeline (State.powerOn cfg) :=
  ⟨BitVec.getLsbD_zero, rfl, rfl, rfl, rfl, rfl⟩

theorem powerOn_inv (cfg : Config) : Inv (State.powerOn cfg) :=
  (inv_iff _).mpr ⟨⟨powerOn_timeline cfg, nofun, .inl rfl, hdmaLegal_reset⟩, nofun, rfl⟩

theorem powerOn_canonical (cfg : Config) : MemoryCanonical (State.powerOn cfg) :=
  ⟨Memory.wf_nil _, Memory.wf_nil _⟩

theorem powerOn_lineSettled (cfg : Config) : LineSettled (State.powerOn cfg) := lineSettled_low rfl rfl rfl

theorem powerOn_colourAbsent (cfg : Config) : ColourAbsent (State.powerOn cfg) :=
  fun _ => ⟨rfl, rfl, rfl, rfl, rfl⟩

theorem powerOn_captureOnlyCompat (cfg : Config) : CaptureOnlyCompat (State.powerOn cfg) := fun _ => rfl

end Sys2Proof.Machine

/-! PROOFS. The statements of spec/70_reset_and_hazards.md. -/

namespace Sys2Proof.Proofs

open Sys2Proof.Machine

/-- Settles O52: the registers by the power-on state's definition, the stores and the frame buffer by what
they read there. -/
theorem resetValues : Obligations.ResetValues := by
  intro s
  have hoam : ∀ x, Memory.read [] x = 0 := Memory.read_nil
  have hvram : ∀ (b : Fin 2) x, Memory.read [] (vramKey b x) = 0 := fun _ _ => Memory.read_nil _
  exact ⟨_, execReset_eq s, rfl, rfl, rfl, rfl, rfl, rfl, rfl, rfl, rfl, rfl, rfl, rfl, rfl, rfl, rfl, rfl, rfl, rfl,
    rfl, rfl, rfl, rfl, rfl, rfl, rfl, rfl, hoam, hvram, rfl, powerOn_fb s.cfg, rfl, rfl, rfl, rfl⟩

/-- Settles O53: as at power-on with any configuration. -/
theorem resetStateIsSafe : Obligations.ResetStateIsSafe :=
  ⟨powerOn_inv _, powerOn_canonical _, powerOn_lineSettled _, powerOn_colourAbsent _, powerOn_captureOnlyCompat _⟩

end Sys2Proof.Proofs
